-- ==== Sys2Proof/Word.lean ====
section
/-! DEFINITION. The two word types of the block: a field element or buffer byte, and a register or bus word. -/

namespace Sys2Proof

/-- A field element, a buffer byte, an 8-bit register (00_scope.md R8, R14: "an unsigned 8-bit value"). -/
abbrev Byte := BitVec 8

/-- A register or bus word (00_scope.md R8, register width 32). -/
abbrev Word := BitVec 32

/-- A byte offset on the host port (00_scope.md R8, address width 16). -/
abbrev Addr := BitVec 16

end Sys2Proof
end

