-- ==== Sys2Proof/Config.lean ====
section
/-! DEFINITION. The constants and the parameters of the block (00_scope.md R8), and the free values the spec leaves open (93_implementation_defined.md U1, U2, U3). -/

namespace Sys2Proof

namespace Config

/-- COL_MAX, the most columns of a codeword (00_scope.md R8). -/
def colMax : Nat := 32

/-- ROW_MAX, the most bytes of a column (00_scope.md R8). -/
def rowMax : Nat := 256

/-- DATA_BYTES, the size of the DATA buffer (00_scope.md R8). -/
def dataBytes : Nat := 8192

/-- MAT_MAX, the most rows and the most columns of a matrix bank (00_scope.md R8). -/
def matMax : Nat := 32

/-- NBANKS, the number of matrix banks (00_scope.md R8). -/
def nBanks : Nat := 4

/-- FREE VALUE (93_implementation_defined.md U2, 70_reset_and_hazards.md R184): the content of the buffer byte
at a port offset that nothing has written since the hardware reset of that number. It has no body, so nothing
constrains it. Log 4. -/
opaque powerOnByte : (resetNumber : Nat) → (offset : Nat) → Byte

/-- FREE VALUE (93_implementation_defined.md U1, 20_memory.md R58): the word an unspecified read returns, one
for each draw. Log 5. -/
opaque busyRead : (draw : Nat) → Word

/-- FREE VALUE (93_implementation_defined.md U3, 70_reset_and_hazards.md R183): a destination byte of an
aborted command, one for each draw. Log 6. -/
opaque abortByte : (draw : Nat) → Byte

end Config

/-- The model parameters of 00_scope.md R8. `evalPoints` lists EVAL_POINT(0), EVAL_POINT(1), ... in order. -/
structure Params where
  /-- FIELD_POLY, a 9-bit polynomial over GF(2). -/
  fieldPoly  : BitVec 9
  /-- FIELD_GEN. -/
  fieldGen   : Byte
  /-- EVAL_POINT(0..COL_MAX-1). -/
  evalPoints : List Byte
deriving DecidableEq, Repr

/-- The defaults of 00_scope.md R8: FIELD_POLY = 0x11D, FIELD_GEN = 0x02, EVAL_POINT(j) = j. -/
def Params.default : Params :=
  { fieldPoly := 0x11D#9, fieldGen := 0x02#8, evalPoints := (List.range Config.colMax).map (BitVec.ofNat 8) }

end Sys2Proof
end

