-- ==== Sys2Proof/Syntax.lean ====
section
/-! DEFINITION. The ten commands of 30_encoding.md R75, one constructor for each row of the opcode table. -/

namespace Sys2Proof

/-- A bank field D, A or B of the command word: four bits (30_encoding.md R70). Its legal values are 0..3
(R71), which `Instr.WellFormed` checks. -/
abbrev BankField := BitVec 4

/-- The command set (00_scope.md R3, 30_encoding.md R75). The field and Reed-Solomon commands have no operand
in the word (R72); their operands are registers and buffers. -/
inductive Instr where
  /-- FADD, 40_field.md R93. -/
  | fadd
  /-- FMUL, 40_field.md R94. -/
  | fmul
  /-- FDIV, 40_field.md R95. -/
  | fdiv
  /-- FINV, 40_field.md R96. -/
  | finv
  /-- FMULX, 40_field.md R97. -/
  | fmulx
  /-- MMUL, destination D, sources A and B, 41_matrix.md R111. -/
  | mmul (d a b : BankField)
  /-- MINV, destination D, source A, 41_matrix.md R112. -/
  | minv (d a : BankField)
  /-- GENMAT, destination D, 41_matrix.md R114. -/
  | genmat (d : BankField)
  /-- ENCODE, 42_reed_solomon.md R132. -/
  | encode
  /-- DECODE, 42_reed_solomon.md R134. -/
  | decode
deriving DecidableEq, Repr

end Sys2Proof
end

