-- ==== Sys2Proof/Machine/State.lean ====
section
/-! DEFINITION. The state of the block as plain data (10_state.md R44), the model's own fields beside it, the state after a hardware reset, and the named updates. -/

namespace Sys2Proof.Machine

/-- The engine's phase (10_state.md R21); it stands in place of a program counter. -/
inductive Phase where
  /-- INIT: the tables are being built, no command can be accepted. -/
  | init
  /-- IDLE: a command can be accepted. -/
  | idle
  /-- EXEC: the command word held in CMD is executing. -/
  | exec
deriving DecidableEq, Repr

/-- The number of a matrix bank, M0..M3 (00_scope.md R8). -/
abbrev BankId := Fin 4

/-- The shape of a bank, one MDIM register: ROWS in bits 5:0, COLS in bits 21:16 (10_state.md R35). -/
structure Shape where
  rows : BitVec 6
  cols : BitVec 6
deriving DecidableEq, Repr

/-- The buffers as one list of (port offset, byte) pairs: BANK, DATA and CW at the offsets of 20_memory.md R53.
Offsets rise strictly; an unlisted byte is one that nothing has written since the hardware reset. Log 4. -/
abbrev Memory := List Host.Cell

/-- The errors a command can complete with, and the reserved one (60_exceptions.md R150). -/
inductive ErrorKind where
  | divByZero
  | dimMismatch
  | singular
  | insufficientShares
  /-- UNKNOWN_WORD: reserved, never raised by this block. -/
  | unknownWord
  | paramRange
  | illegalCmd
deriving DecidableEq, Repr

/-- What a successful command writes (60_exceptions.md R152 lists these four kinds). `stores` lists the buffer
bytes written, by rising port offset. -/
inductive Effect where
  /-- A RESULT write. -/
  | result (r : Byte)
  /-- Bank and MDIM writes. -/
  | matrix (d : BankId) (shape : Shape) (stores : List Host.Cell)
  /-- CW, VALID and ROW_COUNT writes. -/
  | codeword (stores : List Host.Cell) (valid : Word) (rowCount : BitVec 16)
  /-- DATA and ROW_COUNT writes. -/
  | data (stores : List Host.Cell) (rowCount : BitVec 16)
deriving DecidableEq, Repr

/-- The pair (effect, code) of 60_exceptions.md R152: an effect with the code NONE, or an error and no effect. -/
inductive CmdResult where
  | ok (e : Effect)
  | err (k : ErrorKind)
deriving DecidableEq, Repr

/-- The registers of the map (10_state.md R23); the reserved offsets are no register. -/
inductive Reg where
  | id | fieldCfg | sizeCfg | ctrl | status | cmd | opa | opb | result | rowCount
  | origLen | dataChunks | codeChunks | valid
  | mdim (b : BankId)
deriving DecidableEq, Repr

/-- What an aligned, mapped offset names (20_memory.md R53). -/
inductive Target where
  | reg (r : Reg)
  /-- The first of the four bytes of a word in a BANK, DATA or CW window. -/
  | buffer (offset : Nat)
deriving DecidableEq, Repr

/-- One operation of the host. A read and a write are the two transactions of 20_memory.md R51; the two polls
are the host's loops `wait` and `waitready` of 30_encoding.md R80, each turn of which is one read of STATUS. -/
inductive HostOp where
  | read (addr : Addr)
  | write (addr : Addr) (v : Word)
  | wait
  | waitReady
deriving DecidableEq, Repr

/-- Whose turn a step is (10_state.md R20): the host's next transaction, the engine's event, or the platform
asserting the hardware reset (20_memory.md R50, `rst_n`). -/
inductive Turn where
  | host
  | engine
  | hardReset
deriving DecidableEq, Repr

/-- The port's response to a transaction (20_memory.md R51, R56): for a read the word and whether it is a bus
error, for a write whether it is a bus error. -/
inductive Response where
  | read (data : Word) (busError : Bool)
  | write (busError : Bool)
deriving DecidableEq, Repr

/-- The state: the record of 10_state.md R44, the parameters, which no step writes (log 2), and the model's own
fields from `host` on (log 7). READY, BUSY, `irq`, ID, FIELD_CFG, SIZE_CFG, EXP and LOG are computed. -/
structure State where
  params     : Params
  phase      : Phase
  irqEn      : Bool
  done       : Bool
  error      : Bool
  overrun    : Bool
  errcode    : Byte
  cmd        : Word
  opa        : Byte
  opb        : Byte
  result     : Byte
  rowCount   : BitVec 16
  origLen    : BitVec 16
  dataChunks : Byte
  codeChunks : Byte
  valid      : Word
  mdim0      : Shape
  mdim1      : Shape
  mdim2      : Shape
  mdim3      : Shape
  mem        : Memory
  host       : List HostOp
  sched      : List Turn
  resp       : Option Response
  draws      : Nat
  resets     : Nat
deriving DecidableEq, Repr

/-- Reasons to stop with a fault. There is none: the block takes no trap (60_exceptions.md R157), and "no item
of this block is stuck" (93_implementation_defined.md section 1). Log 10. -/
inductive Fault where
deriving DecidableEq, Repr

/-- Reasons to refuse. -/
inductive Refusal where
  /-- The instruction has no meaning yet. Raised by no arm of `exec`: every command has its meaning. Safe. -/
  | notModelled (mnemonic : String)
deriving DecidableEq, Repr

/-- The empty shape, the reset value of an MDIM register (10_state.md R23). -/
def Shape.empty : Shape := { rows := 0#6, cols := 0#6 }

/-- The state at the release of the hardware reset (70_reset_and_hazards.md R180), with the default parameters
(00_scope.md R8), no buffer byte written (R184), and nothing to do for the host (log 7, log 9). -/
def State.reset : State :=
  { params := Params.default, phase := .init,
    irqEn := false, done := false, error := false, overrun := false, errcode := 0#8,
    cmd := 0#32, opa := 0#8, opb := 0#8, result := 0#8, rowCount := 0#16,
    origLen := 0#16, dataChunks := 0#8, codeChunks := 0#8, valid := 0#32,
    mdim0 := .empty, mdim1 := .empty, mdim2 := .empty, mdim3 := .empty,
    mem := [], host := [], sched := [], resp := none, draws := 0, resets := 0 }

namespace State

/-- MDIMb (10_state.md R35). -/
def mdim (s : State) (b : BankId) : Shape :=
  if b = 0 then s.mdim0 else if b = 1 then s.mdim1 else if b = 2 then s.mdim2 else s.mdim3

def setPhase (s : State) (p : Phase) : State := { s with phase := p }
def setIrqEn (s : State) (b : Bool) : State := { s with irqEn := b }
def setDone (s : State) (b : Bool) : State := { s with done := b }
def setError (s : State) (b : Bool) : State := { s with error := b }
def setOverrun (s : State) (b : Bool) : State := { s with overrun := b }
def setErrcode (s : State) (c : Byte) : State := { s with errcode := c }
def setCmd (s : State) (w : Word) : State := { s with cmd := w }
def setOpa (s : State) (v : Byte) : State := { s with opa := v }
def setOpb (s : State) (v : Byte) : State := { s with opb := v }
def setResult (s : State) (v : Byte) : State := { s with result := v }
def setRowCount (s : State) (v : BitVec 16) : State := { s with rowCount := v }
def setOrigLen (s : State) (v : BitVec 16) : State := { s with origLen := v }
def setDataChunks (s : State) (v : Byte) : State := { s with dataChunks := v }
def setCodeChunks (s : State) (v : Byte) : State := { s with codeChunks := v }
def setValid (s : State) (v : Word) : State := { s with valid := v }

/-- MDIMb <- sh. -/
def setMdim (s : State) (b : BankId) (sh : Shape) : State :=
  { s with mdim0 := if b = 0 then sh else s.mdim0, mdim1 := if b = 1 then sh else s.mdim1,
           mdim2 := if b = 2 then sh else s.mdim2, mdim3 := if b = 3 then sh else s.mdim3 }

def setMem (s : State) (m : Memory) : State := { s with mem := m }
def setHost (s : State) (l : List HostOp) : State := { s with host := l }
def setSched (s : State) (l : List Turn) : State := { s with sched := l }
def setResp (s : State) (r : Option Response) : State := { s with resp := r }
def setDraws (s : State) (n : Nat) : State := { s with draws := n }
def setResets (s : State) (n : Nat) : State := { s with resets := n }

end State

end Sys2Proof.Machine
end

