-- ==== Sys2Proof/Machine/Flags.lean ====
section
/-! DEFINITION. The status flags: READY, BUSY, DONE, ERROR, OVERRUN, ERRCODE and the interrupt line (10_state.md R28, R40, R42; 60_exceptions.md R150, R152, R160). -/

namespace Sys2Proof.Machine

/-- The numeric error codes (60_exceptions.md R150). -/
def ErrorKind.code : ErrorKind → Byte
  | .divByZero => 0x01#8
  | .dimMismatch => 0x02#8
  | .singular => 0x03#8
  | .insufficientShares => 0x04#8
  | .unknownWord => 0x05#8
  | .paramRange => 0x06#8
  | .illegalCmd => 0x07#8

/-- The code NONE (60_exceptions.md R150). -/
def codeNone : Byte := 0x00#8

namespace State

/-- READY, STATUS bit 0: phase is not INIT (10_state.md R21, R28). -/
def ready (s : State) : Bool := decide (s.phase ≠ .init)

/-- BUSY, STATUS bit 1: phase is not IDLE (10_state.md R21, R28). -/
def busy (s : State) : Bool := decide (s.phase ≠ .idle)

/-- The interrupt output, a level (10_state.md R40, 60_exceptions.md R160). -/
def irq (s : State) : Bool := s.irqEn && s.done

/-- What a read of STATUS returns: `zext_32({ERRCODE, 000, OVERRUN, ERROR, DONE, BUSY, READY})` (10_state.md R28). -/
def statusWord (s : State) : Word :=
  (s.errcode ++ 0#3 ++ BitVec.ofBool s.overrun ++ BitVec.ofBool s.error ++ BitVec.ofBool s.done
    ++ BitVec.ofBool s.busy ++ BitVec.ofBool s.ready : BitVec 16).setWidth 32

/-- A host write of STATUS: DONE, ERROR and OVERRUN are write-1-to-clear, all else ignores it (10_state.md R28). -/
def writeStatus (s : State) (w : Word) : State :=
  ((s.setDone (s.done && !w.getLsbD 2)).setError (s.error && !w.getLsbD 3)).setOverrun
    (s.overrun && !w.getLsbD 4)

/-- The flags a completion leaves (60_exceptions.md R152): ERRCODE is the code, DONE is set, ERROR is set when the
code is not NONE and else kept. -/
def completionFlags (s : State) (code : Byte) : State :=
  ((s.setErrcode code).setDone true).setError (s.error || decide (code ≠ codeNone))

/-- A dropped host write sets OVERRUN (60_exceptions.md R155). -/
def dropWrite (s : State) : State := s.setOverrun true

end State

end Sys2Proof.Machine
end

