-- ==== Sys2Proof/Machine/Ops.lean ====
section
/-! DEFINITION. The named operations over buffers and the command life cycle: one byte read and written, many bytes stored, a bus word read and written, the completion of a command, acceptance, and the register part of a reset. -/

namespace Sys2Proof.Machine

namespace Memory

/-- The byte listed at an offset, if one is. -/
def get? : Memory → Nat → Option Byte
  | [], _ => none
  | c :: m, a => if c.1 = a then some c.2 else get? m a

/-- Write one byte, keeping the offsets rising. -/
def write : Memory → Nat → Byte → Memory
  | [], a, v => [(a, v)]
  | c :: m, a, v =>
    if a < c.1 then (a, v) :: c :: m
    else if a = c.1 then (a, v) :: m
    else c :: write m a v

/-- Write every listed byte. Where an offset stands twice the first entry stays. -/
def store (m : Memory) (cells : List Host.Cell) : Memory :=
  cells.foldr (fun c acc => write acc c.1 c.2) m

/-- The buffer windows of 20_memory.md R53: BANK[0..3], DATA and CW. -/
def inBuffer (a : Nat) : Bool :=
  (decide (0x1000 ≤ a) && decide (a < 0x2000)) || (decide (0x4000 ≤ a) && decide (a < 0x6000))
    || (decide (0x8000 ≤ a) && decide (a < 0xA000))

/-- The offsets rise strictly. -/
def rising : Memory → Bool
  | [] => true
  | [_] => true
  | c :: d :: m => decide (c.1 < d.1) && rising (d :: m)

/-- The canonical form: offsets rise strictly and lie in the buffer windows. What an unlisted offset reads as is no
byte of the list's own (log 4), so no entry can be equal to it. -/
def wf (m : Memory) : Bool :=
  rising m && m.all (fun c => inBuffer c.1)

end Memory

/-- The port offset of `BANK[b][r][c]` (10_state.md R36, 20_memory.md R53). -/
def bankAddr (b r c : Nat) : Nat := 0x1000 + 0x400 * b + 32 * r + c

/-- The port offset of `DATA[i]` (10_state.md R37). -/
def dataAddr (i : Nat) : Nat := 0x4000 + i

/-- The port offset of `CW[j][r]` (10_state.md R38). -/
def cwAddr (j r : Nat) : Nat := 0x8000 + 256 * j + r

namespace State

/-- The byte of a buffer at a port offset (`BufRead` of 00_scope.md R12): the byte last written, or for a byte that
nothing has written since the hardware reset the free value of 70_reset_and_hazards.md R184 (log 4). -/
def readByte (s : State) (a : Nat) : Byte :=
  (Memory.get? s.mem a).getD (Config.powerOnByte s.resets a)

/-- Store the listed bytes (`BufWrite` of 00_scope.md R12, for each). -/
def storeBytes (s : State) (cells : List Host.Cell) : State :=
  s.setMem (Memory.store s.mem cells)

/-- The aligned buffer word at a port offset, little-endian (20_memory.md R54). -/
def readBufferWord (s : State) (a : Nat) : Word :=
  s.readByte (a + 3) ++ s.readByte (a + 2) ++ s.readByte (a + 1) ++ s.readByte a

/-- The four bytes of a buffer word write, little-endian (20_memory.md R54). -/
def wordCells (a : Nat) (v : Word) : List Host.Cell :=
  [(a, v.extractLsb' 0 8), (a + 1, v.extractLsb' 8 8), (a + 2, v.extractLsb' 16 8), (a + 3, v.extractLsb' 24 8)]

/-- A write of a buffer word always writes all four bytes (20_memory.md R54). -/
def writeBufferWord (s : State) (a : Nat) (v : Word) : State :=
  s.storeBytes (wordCells a v)

/-- Acceptance of a command word (60_exceptions.md R151): CMD takes it and the phase becomes EXEC. -/
def accept (s : State) (w : Word) : State :=
  (s.setCmd w).setPhase .exec

end State

/-- The buffer bytes an effect writes. -/
def Effect.stores : Effect → List Host.Cell
  | .result _ => []
  | .matrix _ _ stores => stores
  | .codeword stores _ _ => stores
  | .data stores _ => stores

/-- Apply a command's effect: its destination writes and nothing else (60_exceptions.md R152). -/
def applyEffect : Effect → State → State
  | .result r, s => s.setResult r
  | .matrix d shape stores, s => (s.storeBytes stores).setMdim d shape
  | .codeword stores v rc, s => ((s.storeBytes stores).setValid v).setRowCount rc
  | .data stores rc, s => (s.storeBytes stores).setRowCount rc

/-- The code a command completes with (60_exceptions.md R150, R152). -/
def CmdResult.code : CmdResult → Byte
  | .ok _ => codeNone
  | .err k => k.code

/-- The destination writes of a result: those of its effect, and none where it is an error (60_exceptions.md R153). -/
def CmdResult.apply : CmdResult → State → State
  | .ok e, s => applyEffect e s
  | .err _, s => s

/-- Completion, the one way a command ends (60_exceptions.md R152, R153), and so the one way an error is reported:
the effect where the code is NONE, then ERRCODE, DONE and ERROR, then phase IDLE. -/
def complete (r : CmdResult) (s : State) : State :=
  ((r.apply s).completionFlags r.code).setPhase .idle

/-- Every register at its reset value and phase INIT (70_reset_and_hazards.md R180, R182 (1) and (2)); the buffers
and what is not the block's own stay. -/
def resetRegisters (s : State) : State :=
  { s with
    phase := .init, irqEn := false, done := false, error := false, overrun := false, errcode := 0#8,
    cmd := 0#32, opa := 0#8, opb := 0#8, result := 0#8, rowCount := 0#16,
    origLen := 0#16, dataChunks := 0#8, codeChunks := 0#8, valid := 0#32,
    mdim0 := .empty, mdim1 := .empty, mdim2 := .empty, mdim3 := .empty }

/-- Hardware reset (70_reset_and_hazards.md R180, R184): the registers as above, and no buffer byte has been written
since this reset. Log 13. -/
def hardwareReset (s : State) : State :=
  ((resetRegisters s).setMem []).setResets (s.resets + 1)

/-- Init-done (70_reset_and_hazards.md R181): phase IDLE and no other change. -/
def initDone (s : State) : State := s.setPhase .idle

end Sys2Proof.Machine
end

