-- ==== Sys2Proof/Machine/Operands.lean ====
section
/-! DEFINITION. The operand forms of the commands (30_encoding.md R72): bank fields, matrices with their shapes, the stream registers and their range checks. -/

namespace Sys2Proof.Machine

/-- A matrix of field elements as a list of rows (00_scope.md R13). -/
abbrev Mat := List (List Byte)

/-- `A[i][j]`, rows and columns counted from 0 (00_scope.md R13). -/
def Mat.entry (m : Mat) (i j : Nat) : Byte := (m.getD i []).getD j 0#8

/-- The matrix of `rows` rows and `cols` columns with element `f i j`. -/
def Mat.build (rows cols : Nat) (f : Nat → Nat → Byte) : Mat :=
  (List.range rows).map fun i => (List.range cols).map fun j => f i j

/-- The bank a field names, when its value is 0..3 (30_encoding.md R71). -/
def bankOf (f : BankField) : Option BankId :=
  if h : f.toNat < 4 then some ⟨f.toNat, h⟩ else none

/-- A shape is valid when 1 ≤ ROWS ≤ MAT_MAX and 1 ≤ COLS ≤ MAT_MAX (10_state.md R35, 41_matrix.md R110). -/
def Shape.valid (sh : Shape) : Bool :=
  decide (1 ≤ sh.rows.toNat) && decide (sh.rows.toNat ≤ Config.matMax)
    && decide (1 ≤ sh.cols.toNat) && decide (sh.cols.toNat ≤ Config.matMax)

/-- The shape of `rows` rows and `cols` columns. -/
def Shape.of (rows cols : Nat) : Shape :=
  { rows := BitVec.ofNat 6 rows, cols := BitVec.ofNat 6 cols }

namespace State

/-- `Mat(b)`, the elements of bank b inside its shape (41_matrix.md R110). -/
def matOf (s : State) (b : BankId) : Mat :=
  Mat.build (s.mdim b).rows.toNat (s.mdim b).cols.toNat fun i j => s.readByte (bankAddr b.val i j)

/-- k = R(DATA_CHUNKS) (10_state.md R33). -/
def k (s : State) : Nat := s.dataChunks.toNat

/-- m = R(CODE_CHUNKS) (10_state.md R33). -/
def m (s : State) : Nat := s.codeChunks.toNat

/-- L = R(ORIG_LEN) (10_state.md R33). -/
def len (s : State) : Nat := s.origLen.toNat

/-- total = k + m, computed exactly (00_scope.md R14, 41_matrix.md R116). -/
def total (s : State) : Nat := s.k + s.m

/-- row_count = ceil(L / k) (00_scope.md R10, R14; 42_reed_solomon.md R131). -/
def rc (s : State) : Nat := (s.len + s.k - 1) / s.k

/-- `check_km(k, m)` passes (41_matrix.md R116). -/
def kmOk (s : State) : Bool :=
  decide (1 ≤ s.k) && decide (s.total ≤ Config.colMax)

/-- `check_stream(k, m, L)` passes (42_reed_solomon.md R130). -/
def streamOk (s : State) : Bool :=
  s.kmOk && decide (s.len ≤ s.k * Config.rowMax)

/-- The padded data as k rows of rc bytes: row c is data column c, whose byte r is `M[r][c]` (42_reed_solomon.md
R131: `DATA[r*k + c]` where that lies below L, else 0x00). -/
def dataColumns (s : State) : Mat :=
  Mat.build s.k s.rc fun c r => if r * s.k + c < s.len then s.readByte (dataAddr (r * s.k + c)) else 0#8

/-- The columns j < total that VALID marks, in ascending order (42_reed_solomon.md R135). -/
def validColumns (s : State) : List Nat :=
  (List.range s.total).filter fun j => s.valid.getLsbD j

/-- The selection s_0 < ... < s_{k-1}: the k valid columns of lowest index (42_reed_solomon.md R135). -/
def selected (s : State) : List Nat := s.validColumns.take s.k

/-- The bytes of the selected columns at rows < rc: row i is column s_i (42_reed_solomon.md R134). -/
def survivors (s : State) : Mat :=
  s.selected.map fun j => (List.range s.rc).map fun r => s.readByte (cwAddr j r)

end State

/-- The buffer bytes of a matrix at rows < `rows` and columns < `cols` whose element (i, j) stands at offset
`addr i j`; `addr` rises along rows and columns, so the cells rise too. -/
def matCells (rows cols : Nat) (addr : Nat → Nat → Nat) (x : Mat) : List Host.Cell :=
  (List.range rows).flatMap fun i => (List.range cols).map fun j => (addr i j, x.entry i j)

end Sys2Proof.Machine
end

