-- ==== Sys2Proof/Machine/Field.lean ====
section
/-! DEFINITION. GF(256): the pure functions of 40_field.md (R91, R93 to R97), then the five field commands. -/

namespace Sys2Proof.Machine

/-- Multiply by x and reduce: one turn of the x register of FMULX_fn (40_field.md R97). -/
def xtime (poly : BitVec 9) (x : Byte) : Byte :=
  if x.getLsbD 7 then (x <<< 1) ^^^ poly.setWidth 8 else x <<< 1

/-- The loop of FMULX_fn (40_field.md R97), the given number of turns still to go. -/
def fmulxLoop (poly : BitVec 9) : Nat → (p x y : Byte) → Byte
  | 0, p, _, _ => p
  | n + 1, p, x, y => fmulxLoop poly n (if y.getLsbD 0 then p ^^^ x else p) (xtime poly x) (y >>> 1)

/-- FMULX_fn, the shift-and-reduce product (40_field.md R97). -/
def fmulx (P : Params) (a b : Byte) : Byte := fmulxLoop P.fieldPoly 8 0#8 a b

/-- FADD_fn (40_field.md R93). -/
def fadd (a b : Byte) : Byte := a ^^^ b

/-- The tables EXP and LOG (10_state.md R39, 40_field.md R91), 256 entries each. -/
structure Tables where
  exp : List Byte
  log : List Byte
deriving DecidableEq, Repr

/-- x, x times FIELD_GEN, ...: the values the loop of 40_field.md R91 gives EXP, n of them. -/
def powersFrom (P : Params) : Nat → Byte → List Byte
  | 0, _ => []
  | n + 1, x => x :: powersFrom P n (fmulx P x P.fieldGen)

/-- EXP[0..254] (40_field.md R91). -/
def expEntries (P : Params) : List Byte := powersFrom P 255 0x01#8

/-- The tables of 40_field.md R91. LOG[x] is the i with EXP[i] = x, the same map as the loop's for every FIELD_GEN
that meets its constraint; EXP[255] = 0x01 and LOG[0] = 0 are never read (R92). Log 3. -/
def tables (P : Params) : Tables :=
  { exp := expEntries P ++ [0x01#8],
    log := 0#8 :: (List.range' 1 255).map fun x => BitVec.ofNat 8 ((expEntries P).idxOf (BitVec.ofNat 8 x)) }

/-- EXP[i]. -/
def Tables.expAt (T : Tables) (i : Nat) : Byte := T.exp.getD i 0#8

/-- LOG[x], as the integer the index arithmetic of 40_field.md R103 uses. -/
def Tables.logAt (T : Tables) (x : Byte) : Nat := (T.log.getD x.toNat 0#8).toNat

/-- FMUL_fn, the table product (40_field.md R94). -/
def fmul (T : Tables) (a b : Byte) : Byte :=
  if a = 0#8 ∨ b = 0#8 then 0#8 else T.expAt ((T.logAt a + T.logAt b) % 255)

/-- a ⊘ b for a nonzero divisor (40_field.md R95, the last two lines of FDIV_fn). -/
def fquot (T : Tables) (a b : Byte) : Byte :=
  if a = 0#8 then 0#8 else T.expAt ((T.logAt a + 255 - T.logAt b) % 255)

/-- FDIV_fn: `none` is DIV_BY_ZERO, and the divisor is tested first (40_field.md R95). -/
def fdiv (T : Tables) (a b : Byte) : Option Byte :=
  if b = 0#8 then none else some (fquot T a b)

/-- FINV_fn: `none` is DIV_BY_ZERO (40_field.md R96). -/
def finv (T : Tables) (a : Byte) : Option Byte :=
  if a = 0#8 then none else some (T.expAt ((255 - T.logAt a) % 255))

/-- `Σ⊕`, the field sum of a list; the empty sum is 0 (00_scope.md R11). -/
def fsum (l : List Byte) : Byte := l.foldr fadd 0#8

/-- `Π`, the field product of a list; the empty product is 0x01 (41_matrix.md R113). -/
def fprod (T : Tables) (l : List Byte) : Byte := l.foldr (fmul T) 0x01#8

/-- A field command's result from its function's value: RESULT, or DIV_BY_ZERO (40_field.md R95, R96). -/
def resultOr : Option Byte → CmdResult
  | some r => .ok (.result r)
  | none => .err .divByZero

/-- FADD: (effect, code) (40_field.md R93). -/
def faddResult (s : State) : CmdResult := .ok (.result (fadd s.opa s.opb))

/-- FMUL: (effect, code) (40_field.md R94). -/
def fmulResult (s : State) : CmdResult := .ok (.result (fmul (tables s.params) s.opa s.opb))

/-- FDIV: (effect, code) (40_field.md R95). -/
def fdivResult (s : State) : CmdResult := resultOr (fdiv (tables s.params) s.opa s.opb)

/-- FINV: (effect, code) (40_field.md R96). OPB is not read. -/
def finvResult (s : State) : CmdResult := resultOr (finv (tables s.params) s.opa)

/-- FMULX: (effect, code) (40_field.md R97). -/
def fmulxResult (s : State) : CmdResult := .ok (.result (fmulx s.params s.opa s.opb))

/-- FADD completes (40_field.md R93, 60_exceptions.md R152). -/
def execFadd (s : State) : Host.Outcome State Fault Refusal := .next (complete (faddResult s) s)

/-- FMUL completes (40_field.md R94, 60_exceptions.md R152). -/
def execFmul (s : State) : Host.Outcome State Fault Refusal := .next (complete (fmulResult s) s)

/-- FDIV completes (40_field.md R95, 60_exceptions.md R152). -/
def execFdiv (s : State) : Host.Outcome State Fault Refusal := .next (complete (fdivResult s) s)

/-- FINV completes (40_field.md R96, 60_exceptions.md R152). -/
def execFinv (s : State) : Host.Outcome State Fault Refusal := .next (complete (finvResult s) s)

/-- FMULX completes (40_field.md R97, 60_exceptions.md R152). -/
def execFmulx (s : State) : Host.Outcome State Fault Refusal := .next (complete (fmulxResult s) s)

end Sys2Proof.Machine
end

