-- ==== Sys2Proof/Machine/Matrix.lean ====
section
/-! DEFINITION. Matrices over GF(256): product, Gauss-Jordan inverse and generator matrix (41_matrix.md R111 to R113), then the three matrix commands. -/

namespace Sys2Proof.Machine

/-- The product of an `n × m` and an `m × p` matrix: `C[i][j] = Σ⊕_t A[i][t] ⊗ B[t][j]` (41_matrix.md R111). -/
def matMul (T : Tables) (n m p : Nat) (a b : Mat) : Mat :=
  Mat.build n p fun i j => fsum ((List.range m).map fun t => fmul T (a.entry i t) (b.entry t j))

/-- `[A | I]`, n rows of 2n elements (41_matrix.md R112). -/
def augment (n : Nat) (a : Mat) : Mat :=
  Mat.build n (2 * n) fun i j => if j < n then a.entry i j else if j = n + i then 0x01#8 else 0#8

/-- The least row r with col ≤ r < n and a nonzero element in column `col` (41_matrix.md R112). -/
def pivotRow (n col : Nat) (aug : Mat) : Option Nat :=
  (List.range' col (n - col)).find? fun r => decide (aug.entry r col ≠ 0#8)

/-- Exchange two rows. -/
def swapRows (aug : Mat) (p q : Nat) : Mat :=
  (aug.set p (aug.getD q [])).set q (aug.getD p [])

/-- Divide the pivot row by its pivot and clear the column in every other row (41_matrix.md R112). -/
def eliminate (T : Tables) (n col : Nat) (aug : Mat) : Mat :=
  let piv := aug.entry col col
  let prow := (aug.getD col []).map fun x => fquot T x piv
  (List.range n).map fun r =>
    if r = col then prow
    else
      let f := aug.entry r col
      List.zipWith (fun x y => fadd x (fmul T f y)) (aug.getD r []) prow

/-- The columns `col, col + 1, ...` of Gauss-Jordan elimination, the given number of them still to do; `none` is
SINGULAR (41_matrix.md R112). -/
def gaussJordan (T : Tables) (n : Nat) : (todo col : Nat) → Mat → Option Mat
  | 0, _, aug => some aug
  | todo + 1, col, aug =>
    match pivotRow n col aug with
    | none => none
    | some p => gaussJordan T n todo (col + 1) (eliminate T n col (swapRows aug p col))

/-- The inverse of an n × n matrix, the right half of the reduced `[A | I]`; `none` is SINGULAR (41_matrix.md R112). -/
def matInv (T : Tables) (n : Nat) (a : Mat) : Option Mat :=
  (gaussJordan T n n 0 (augment n a)).map fun aug => aug.map (List.drop n)

/-- `x_j = EVAL_POINT(j)` (00_scope.md R8). -/
def evalPoint (P : Params) (j : Nat) : Byte := P.evalPoints.getD j 0#8

/-- `L_c(x) = Π_{t < k, t ≠ c} ((x ⊕ x_t) ⊘ (x_c ⊕ x_t))` (41_matrix.md R113, 42_reed_solomon.md R141). -/
def lagrangeBasis (P : Params) (T : Tables) (k c : Nat) (x : Byte) : Byte :=
  fprod T (((List.range k).filter fun t => decide (t ≠ c)).map fun t =>
    fquot T (fadd x (evalPoint P t)) (fadd (evalPoint P c) (evalPoint P t)))

/-- `G[j][c]` of the generator matrix G(k, m); it does not depend on m (41_matrix.md R113). -/
def genEntry (P : Params) (T : Tables) (k j c : Nat) : Byte :=
  if j < k then (if j = c then 0x01#8 else 0x00#8) else lagrangeBasis P T k c (evalPoint P j)

/-- The rows of G(k, m) with the listed indices (41_matrix.md R113). -/
def genRows (P : Params) (T : Tables) (k : Nat) (rows : List Nat) : Mat :=
  rows.map fun j => (List.range k).map fun c => genEntry P T k j c

/-- The bank and MDIM writes of a matrix command: the elements inside the new shape (10_state.md R36). -/
def bankEffect (d : BankId) (rows cols : Nat) (x : Mat) : Effect :=
  .matrix d (Shape.of rows cols) (matCells rows cols (bankAddr d.val) x)

/-- MMUL on legal bank numbers: (effect, code) (41_matrix.md R111, 60_exceptions.md R154). -/
def mmulBanks (d a b : BankId) (s : State) : CmdResult :=
  let sa := s.mdim a
  let sb := s.mdim b
  if sa.valid && sb.valid then
    if sa.cols = sb.rows then
      .ok (bankEffect d sa.rows.toNat sb.cols.toNat
        (matMul (tables s.params) sa.rows.toNat sa.cols.toNat sb.cols.toNat (s.matOf a) (s.matOf b)))
    else .err .dimMismatch
  else .err .paramRange

/-- MMUL: (effect, code). A bank field of 4 or more makes the word illegal (30_encoding.md R71, R73; log 12). -/
def mmulResult (d a b : BankField) (s : State) : CmdResult :=
  match bankOf d, bankOf a, bankOf b with
  | some d, some a, some b => mmulBanks d a b s
  | _, _, _ => .err .illegalCmd

/-- MINV on legal bank numbers: (effect, code) (41_matrix.md R112, 60_exceptions.md R154). -/
def minvBanks (d a : BankId) (s : State) : CmdResult :=
  let sa := s.mdim a
  if sa.valid then
    if sa.rows = sa.cols then
      match matInv (tables s.params) sa.rows.toNat (s.matOf a) with
      | some x => .ok (bankEffect d sa.rows.toNat sa.rows.toNat x)
      | none => .err .singular
    else .err .dimMismatch
  else .err .paramRange

/-- MINV: (effect, code). A bank field of 4 or more makes the word illegal (30_encoding.md R71, R73; log 12). -/
def minvResult (d a : BankField) (s : State) : CmdResult :=
  match bankOf d, bankOf a with
  | some d, some a => minvBanks d a s
  | _, _ => .err .illegalCmd

/-- GENMAT on a legal bank number: (effect, code) (41_matrix.md R114, R116). -/
def genmatBank (d : BankId) (s : State) : CmdResult :=
  if s.kmOk then
    .ok (bankEffect d s.total s.k (genRows s.params (tables s.params) s.k (List.range s.total)))
  else .err .paramRange

/-- GENMAT: (effect, code). A bank field of 4 or more makes the word illegal (30_encoding.md R71, R73; log 12). -/
def genmatResult (d : BankField) (s : State) : CmdResult :=
  match bankOf d with
  | some d => genmatBank d s
  | none => .err .illegalCmd

/-- MMUL completes (41_matrix.md R111, 60_exceptions.md R152). -/
def execMmul (d a b : BankField) (s : State) : Host.Outcome State Fault Refusal :=
  .next (complete (mmulResult d a b s) s)

/-- MINV completes (41_matrix.md R112, 60_exceptions.md R152). -/
def execMinv (d a : BankField) (s : State) : Host.Outcome State Fault Refusal :=
  .next (complete (minvResult d a s) s)

/-- GENMAT completes (41_matrix.md R114, 60_exceptions.md R152). -/
def execGenmat (d : BankField) (s : State) : Host.Outcome State Fault Refusal :=
  .next (complete (genmatResult d s) s)

end Sys2Proof.Machine
end

