-- ==== Sys2Proof/Machine/ReedSolomon.lean ====
section
/-! DEFINITION. The Reed-Solomon erasure encoder and decoder (42_reed_solomon.md R132 to R139). -/

namespace Sys2Proof.Machine

/-- All codeword columns, row j being column j: `col[j][r] = Σ⊕_c G[j][c] ⊗ M[r][c]` (42_reed_solomon.md R132). -/
def codewordColumns (s : State) : Mat :=
  matMul (tables s.params) s.total s.k s.rc
    (genRows s.params (tables s.params) s.k (List.range s.total)) s.dataColumns

/-- `(1 << total) - 1` (10_state.md R34, 42_reed_solomon.md R133). -/
def allValid (total : Nat) : Word := BitVec.ofNat 32 (2 ^ total - 1)

/-- ENCODE: (effect, code) (42_reed_solomon.md R132). -/
def encodeResult (s : State) : CmdResult :=
  if s.streamOk then
    .ok (.codeword (matCells s.total s.rc cwAddr (codewordColumns s)) (allValid s.total) (BitVec.ofNat 16 s.rc))
  else .err .paramRange

/-- The sub-matrix `Gs` of the selected rows of G(k, m) (42_reed_solomon.md R134, R136). -/
def selectedRows (s : State) : Mat :=
  genRows s.params (tables s.params) s.k s.selected

/-- `H · y`: row c holds the recovered bytes D[r*k + c] for r < rc (42_reed_solomon.md R134). -/
def recoveredColumns (s : State) (h : Mat) : Mat :=
  matMul (tables s.params) s.k s.k s.rc h s.survivors

/-- DATA[0..L-1] from the recovered columns: byte p is D[p], row p / k of column p mod k (42_reed_solomon.md R137). -/
def dataCells (s : State) (x : Mat) : List Host.Cell :=
  (List.range s.len).map fun p => (dataAddr p, x.entry (p % s.k) (p / s.k))

/-- DECODE: (effect, code) (42_reed_solomon.md R134, 60_exceptions.md R154). -/
def decodeResult (s : State) : CmdResult :=
  if s.streamOk then
    if s.validColumns.length < s.k then .err .insufficientShares
    else
      match matInv (tables s.params) s.k (selectedRows s) with
      | some h => .ok (.data (dataCells s (recoveredColumns s h)) (BitVec.ofNat 16 s.rc))
      | none => .err .singular
  else .err .paramRange

/-- ENCODE completes (42_reed_solomon.md R132, 60_exceptions.md R152). -/
def execEncode (s : State) : Host.Outcome State Fault Refusal := .next (complete (encodeResult s) s)

/-- DECODE completes (42_reed_solomon.md R134, 60_exceptions.md R152). -/
def execDecode (s : State) : Host.Outcome State Fault Refusal := .next (complete (decodeResult s) s)

end Sys2Proof.Machine
end

