-- ==== Sys2Proof/Machine/Dispatch.lean ====
section
/-! DEFINITION. The meaning of each command: one arm per constructor of Instr. -/

namespace Sys2Proof.Machine

-- The completion of the command (60_exceptions.md R152) by the rule that 30_encoding.md R75 names for it.
def exec (i : Instr) (s : State) : Host.Outcome State Fault Refusal :=
  match i with
  | .fadd => Sys2Proof.Machine.execFadd s
  | .fmul => Sys2Proof.Machine.execFmul s
  | .fdiv => Sys2Proof.Machine.execFdiv s
  | .finv => Sys2Proof.Machine.execFinv s
  | .fmulx => Sys2Proof.Machine.execFmulx s
  | .mmul d a b => Sys2Proof.Machine.execMmul d a b s
  | .minv d a => Sys2Proof.Machine.execMinv d a s
  | .genmat d => Sys2Proof.Machine.execGenmat d s
  | .encode => Sys2Proof.Machine.execEncode s
  | .decode => Sys2Proof.Machine.execDecode s

end Sys2Proof.Machine
end

