-- ==== Sys2Proof/WellFormed.lean ====
section
/-! DEFINITION. Which commands are legal as written: 30_encoding.md R71 and R73. -/

namespace Sys2Proof

/-- A used bank field is legal when it names one of the NBANKS banks: its value is 0..3 (30_encoding.md R71). -/
def BankField.legal (f : BankField) : Bool :=
  decide (f.toNat < Config.nBanks)

/-- Every bank field the command uses is legal (30_encoding.md R73). -/
def Instr.WellFormed : Instr → Bool
  | .fadd => true
  | .fmul => true
  | .fdiv => true
  | .finv => true
  | .fmulx => true
  | .mmul d a b => d.legal && a.legal && b.legal
  | .minv d a => d.legal && a.legal
  | .genmat d => d.legal
  | .encode => true
  | .decode => true

end Sys2Proof
end

