-- ==== Sys2Proof/Decode.lean ====
section
/-! DEFINITION. The decoder of command words, total and rejecting by name, then the encoder, then the opcode map as data (30_encoding.md R70 to R76). -/

namespace Sys2Proof

/-- Why a word is illegal (30_encoding.md R73). Every reason completes with the one code ILLEGAL_CMD. -/
inductive DecodeReject where
  /-- RSV, bits 31:20, is not 0. -/
  | reservedBits
  /-- OP, bits 7:0, is none of the ten opcodes of R75. -/
  | unknownOpcode
  /-- A bank field the opcode uses has a value of 4 or more. -/
  | bankOutOfRange
  /-- A bank field the opcode does not use is not 0. -/
  | unusedField
deriving DecidableEq, Repr

/-- What the decoder makes of a word: the legal command, or the reason it is illegal. -/
inductive Decoded where
  | legal (i : Instr)
  | illegal (why : DecodeReject)
deriving DecidableEq, Repr

/-- OP, bits 7:0 (30_encoding.md R70). -/
def opField (w : Word) : Byte := w.extractLsb' 0 8

/-- D, bits 11:8. -/
def dField (w : Word) : BankField := w.extractLsb' 8 4

/-- A, bits 15:12. -/
def aField (w : Word) : BankField := w.extractLsb' 12 4

/-- B, bits 19:16. -/
def bField (w : Word) : BankField := w.extractLsb' 16 4

/-- RSV, bits 31:20. -/
def rsvField (w : Word) : BitVec 12 := w.extractLsb' 20 12

/-- Accept a command whose unused bank fields are all 0 and whose used ones are legal (30_encoding.md R71). -/
def checkFields (unused : List BankField) (i : Instr) : Decoded :=
  if unused.all (fun f => decide (f = 0#4)) then
    if i.WellFormed then .legal i else .illegal .bankOutOfRange
  else .illegal .unusedField

/-- The decoder (30_encoding.md R73, R75): every one of the 2^32 words is one legal command or illegal (R76). -/
def decode (w : Word) : Decoded :=
  if rsvField w = 0#12 then
    match (opField w).toNat with
    | 0x01 => checkFields [dField w, aField w, bField w] .fadd
    | 0x02 => checkFields [dField w, aField w, bField w] .fmul
    | 0x03 => checkFields [dField w, aField w, bField w] .fdiv
    | 0x04 => checkFields [dField w, aField w, bField w] .finv
    | 0x05 => checkFields [dField w, aField w, bField w] .fmulx
    | 0x10 => checkFields [] (.mmul (dField w) (aField w) (bField w))
    | 0x11 => checkFields [bField w] (.minv (dField w) (aField w))
    | 0x12 => checkFields [aField w, bField w] (.genmat (dField w))
    | 0x20 => checkFields [dField w, aField w, bField w] .encode
    | 0x21 => checkFields [dField w, aField w, bField w] .decode
    | _ => .illegal .unknownOpcode
  else .illegal .reservedBits

/-- The instruction the decoder reads from the table's bits `w` of a row of `nbits` bits, the bits above being 0.
A command is one 32-bit word (30_encoding.md R76), so the table's numbering is the word's own. -/
def decodeTableWord (nbits w : Nat) : Option Instr :=
  match decode (BitVec.ofNat 32 (w % 2 ^ nbits)) with
  | .legal i => some i
  | .illegal _ => none

/-- The opcode OP of a command (30_encoding.md R75). -/
def opcode : Instr → Byte
  | .fadd => 0x01#8
  | .fmul => 0x02#8
  | .fdiv => 0x03#8
  | .finv => 0x04#8
  | .fmulx => 0x05#8
  | .mmul _ _ _ => 0x10#8
  | .minv _ _ => 0x11#8
  | .genmat _ => 0x12#8
  | .encode => 0x20#8
  | .decode => 0x21#8

/-- The word of format CMDW with the given fields and RSV = 0 (30_encoding.md R70). -/
def cmdw (b a d : BankField) (op : Byte) : Word :=
  0#12 ++ b ++ a ++ d ++ op

/-- The encoder (30_encoding.md R75): the used fields in their places, the others 0. -/
def encode : Instr → Word
  | .fadd => cmdw 0#4 0#4 0#4 (opcode .fadd)
  | .fmul => cmdw 0#4 0#4 0#4 (opcode .fmul)
  | .fdiv => cmdw 0#4 0#4 0#4 (opcode .fdiv)
  | .finv => cmdw 0#4 0#4 0#4 (opcode .finv)
  | .fmulx => cmdw 0#4 0#4 0#4 (opcode .fmulx)
  | .mmul d a b => cmdw b a d (opcode (.mmul d a b))
  | .minv d a => cmdw 0#4 a d (opcode (.minv d a))
  | .genmat d => cmdw 0#4 0#4 d (opcode (.genmat d))
  | .encode => cmdw 0#4 0#4 0#4 (opcode .encode)
  | .decode => cmdw 0#4 0#4 0#4 (opcode .decode)

/-- A row of the opcode map of 30_encoding.md R75, as the spec prints it. -/
structure OpcodeRow where
  matchBits : Word
  maskBits  : Word
deriving DecidableEq, Repr

/-- A word selects a row when `(w & mask) == match` (30_encoding.md R75). -/
def OpcodeRow.selects (r : OpcodeRow) (w : Word) : Bool :=
  decide (w &&& r.maskBits = r.matchBits)

/-- The ten rows of 30_encoding.md R75, in its order. The decoder does not read them; that the two agree is an
obligation (`Obligations.LegalExactlyWhenOneRowMatches`). -/
def opcodeRows : List OpcodeRow :=
  [ ⟨0x00000001#32, 0xFFFFFFFF#32⟩,   -- FADD
    ⟨0x00000002#32, 0xFFFFFFFF#32⟩,   -- FMUL
    ⟨0x00000003#32, 0xFFFFFFFF#32⟩,   -- FDIV
    ⟨0x00000004#32, 0xFFFFFFFF#32⟩,   -- FINV
    ⟨0x00000005#32, 0xFFFFFFFF#32⟩,   -- FMULX
    ⟨0x00000010#32, 0xFFFCCCFF#32⟩,   -- MMUL
    ⟨0x00000011#32, 0xFFFFCCFF#32⟩,   -- MINV
    ⟨0x00000012#32, 0xFFFFFCFF#32⟩,   -- GENMAT
    ⟨0x00000020#32, 0xFFFFFFFF#32⟩,   -- ENCODE
    ⟨0x00000021#32, 0xFFFFFFFF#32⟩ ]  -- DECODE

end Sys2Proof
end

