-- ==== Sys2Proof/Machine/HostPort.lean ====
section
/-! DEFINITION. The host port: address decode, register and buffer reads and writes, dropped writes, bus errors, soft reset and abort, and the host's polls (10_state.md, 20_memory.md, 60_exceptions.md, 70_reset_and_hazards.md). -/

namespace Sys2Proof.Machine

/-- The register at an aligned offset below 0x50 (10_state.md R23); 0x00C and 0x01C are reserved (20_memory.md R53). -/
def regAt (a : Nat) : Option Reg :=
  match a with
  | 0x000 => some .id
  | 0x004 => some .fieldCfg
  | 0x008 => some .sizeCfg
  | 0x010 => some .ctrl
  | 0x014 => some .status
  | 0x018 => some .cmd
  | 0x020 => some .opa
  | 0x024 => some .opb
  | 0x028 => some .result
  | 0x02C => some .rowCount
  | 0x030 => some .origLen
  | 0x034 => some .dataChunks
  | 0x038 => some .codeChunks
  | 0x03C => some .valid
  | 0x040 => some (.mdim 0)
  | 0x044 => some (.mdim 1)
  | 0x048 => some (.mdim 2)
  | 0x04C => some (.mdim 3)
  | _ => none

/-- The offset of each register (10_state.md R23). -/
def regOffset : Reg → Addr
  | .id => 0x000#16
  | .fieldCfg => 0x004#16
  | .sizeCfg => 0x008#16
  | .ctrl => 0x010#16
  | .status => 0x014#16
  | .cmd => 0x018#16
  | .opa => 0x020#16
  | .opb => 0x024#16
  | .result => 0x028#16
  | .rowCount => 0x02C#16
  | .origLen => 0x030#16
  | .dataChunks => 0x034#16
  | .codeChunks => 0x038#16
  | .valid => 0x03C#16
  | .mdim b => BitVec.ofNat 16 (0x040 + 4 * b.val)

/-- Address decode: `none` is a bus error, for a misaligned offset (20_memory.md R52) and for a reserved one (R55). -/
def target (addr : Addr) : Option Target :=
  let a := addr.toNat
  if a % 4 ≠ 0 then none
  else if Memory.inBuffer a then some (.buffer a)
  else (regAt a).map .reg

/-- What a command would complete with on the state (60_exceptions.md R152, `semantics`), for a legal command. It is
the result that the command's meaning in `exec` hands to `complete`. -/
def instrResult (i : Instr) (s : State) : CmdResult :=
  match i with
  | .fadd => faddResult s
  | .fmul => fmulResult s
  | .fdiv => fdivResult s
  | .finv => finvResult s
  | .fmulx => fmulxResult s
  | .mmul d a b => mmulResult d a b s
  | .minv d a => minvResult d a s
  | .genmat d => genmatResult d s
  | .encode => encodeResult s
  | .decode => decodeResult s

/-- `semantics(R(CMD), state)` of 60_exceptions.md R152 for any word: an illegal word gives ILLEGAL_CMD
(30_encoding.md R73). -/
def commandResult (w : Word) (s : State) : CmdResult :=
  match decode w with
  | .legal i => instrResult i s
  | .illegal _ => .err .illegalCmd

/-- The buffer bytes the command held in CMD would write if it completed now; none if it would fail
(70_reset_and_hazards.md R183). -/
def CmdResult.stores : CmdResult → List Host.Cell
  | .ok e => e.stores
  | .err _ => []

/-- The cells of an aborted command's destination: the same offsets, each with a fresh free value
(70_reset_and_hazards.md R183; log 6). -/
def freshCells (draw : Nat) : List Host.Cell → List Host.Cell
  | [] => []
  | c :: rest => (c.1, Config.abortByte draw) :: freshCells (draw + 1) rest

namespace State

/-- The abort of a running command: if it would have completed with NONE, the buffer bytes it would have written hold
unspecified values (70_reset_and_hazards.md R183). Outside phase EXEC nothing runs and nothing changes. -/
def abort (s : State) : State :=
  if s.phase = .exec then
    let cells := (commandResult s.cmd s).stores
    (s.storeBytes (freshCells s.draws cells)).setDraws (s.draws + cells.length)
  else s

/-- Soft reset, in any phase (70_reset_and_hazards.md R182, R183). -/
def softReset (s : State) : State := resetRegisters s.abort

/-- A host write of CTRL, in any phase (10_state.md R27). -/
def writeCtrl (s : State) (w : Word) : State :=
  if w.getLsbD 0 then s.softReset else s.setIrqEn (w.getLsbD 1)

/-- A host write of a register other than CTRL and STATUS in phase IDLE (10_state.md R29 to R35, R43): read-only
registers and reserved bits ignore it, and a CMD write is accepted. -/
def writeIdleReg (s : State) (r : Reg) (w : Word) : State :=
  match r with
  | .id => s
  | .fieldCfg => s
  | .sizeCfg => s
  | .ctrl => s
  | .status => s
  | .cmd => s.accept w
  | .opa => s.setOpa (w.extractLsb' 0 8)
  | .opb => s.setOpb (w.extractLsb' 0 8)
  | .result => s
  | .rowCount => s
  | .origLen => s.setOrigLen (w.extractLsb' 0 16)
  | .dataChunks => s.setDataChunks (w.extractLsb' 0 8)
  | .codeChunks => s.setCodeChunks (w.extractLsb' 0 8)
  | .valid => s.setValid w
  | .mdim b => s.setMdim b { rows := w.extractLsb' 0 6, cols := w.extractLsb' 16 6 }

/-- A host write to a mapped target: CTRL and STATUS take it in every phase, the rest only in phase IDLE, and else
it is dropped and sets OVERRUN (60_exceptions.md R155). -/
def writeTarget (s : State) (t : Target) (w : Word) : State :=
  match t with
  | .reg .ctrl => s.writeCtrl w
  | .reg .status => s.writeStatus w
  | .reg r => if s.phase = .idle then s.writeIdleReg r w else s.dropWrite
  | .buffer a => if s.phase = .idle then s.writeBufferWord a w else s.dropWrite

/-- The value a register read returns when it is defined (10_state.md R24 to R35); reserved bits read 0 (R43). -/
def regValue (s : State) : Reg → Word
  | .id => 0x47460100#32
  | .fieldCfg => (0#8 ++ s.params.fieldGen ++ 0#7 ++ s.params.fieldPoly : BitVec 32)
  | .sizeCfg =>
    BitVec.ofNat 16 Config.rowMax ++ BitVec.ofNat 8 Config.matMax ++ BitVec.ofNat 8 Config.colMax
  | .ctrl => (BitVec.ofBool s.irqEn ++ 0#1 : BitVec 2).setWidth 32
  | .status => s.statusWord
  | .cmd => s.cmd
  | .opa => s.opa.setWidth 32
  | .opb => s.opb.setWidth 32
  | .result => s.result.setWidth 32
  | .rowCount => s.rowCount.setWidth 32
  | .origLen => s.origLen.setWidth 32
  | .dataChunks => s.dataChunks.setWidth 32
  | .codeChunks => s.codeChunks.setWidth 32
  | .valid => s.valid
  | .mdim b => ((s.mdim b).cols ++ 0#10 ++ (s.mdim b).rows : BitVec 22).setWidth 32

/-- The value a read of a mapped target returns when it is defined. -/
def targetValue (s : State) : Target → Word
  | .reg r => s.regValue r
  | .buffer a => s.readBufferWord a

end State

/-- The reads whose value is unspecified while phase is not IDLE: RESULT, ROW_COUNT, VALID, MDIM0..MDIM3 and every
buffer offset (20_memory.md R58). -/
def Target.unspecifiedWhileBusy : Target → Bool
  | .reg .result => true
  | .reg .rowCount => true
  | .reg .valid => true
  | .reg (.mdim _) => true
  | .reg _ => false
  | .buffer _ => true

namespace State

/-- `MemRead(addr, 4)` (20_memory.md R51, R56 to R58): a bus error returns 0; an unspecified read returns a fresh free
value (log 5); no read has a side effect on the block. -/
def hostRead (s : State) (addr : Addr) : State :=
  match target addr with
  | none => s.setResp (some (.read 0#32 true))
  | some t =>
    if s.busy && t.unspecifiedWhileBusy then
      (s.setResp (some (.read (Config.busyRead s.draws) false))).setDraws (s.draws + 1)
    else s.setResp (some (.read (s.targetValue t) false))

/-- `MemWrite(addr, 4, w)` (20_memory.md R51, R56): a bus error changes nothing; any other write answers ok, a dropped
one too (log 18). -/
def hostWrite (s : State) (addr : Addr) (w : Word) : State :=
  match target addr with
  | none => s.setResp (some (.write true))
  | some t => (s.writeTarget t w).setResp (some (.write false))

/-- One turn of the host (20_memory.md R59 (1), in the order issued): a transaction, or one read of STATUS by a poll,
which stays at the head until it reads what it waits for (30_encoding.md R80; log 8). With nothing left to issue the
host does nothing (log 11). -/
def hostTurn (s : State) : State :=
  match s.host with
  | [] => s
  | .read a :: rest => (s.setHost rest).hostRead a
  | .write a w :: rest => (s.setHost rest).hostWrite a w
  | .wait :: rest => (if s.busy then s else s.setHost rest).hostRead (regOffset .status)
  | .waitReady :: rest => (if s.ready && !s.busy then s.setHost rest else s).hostRead (regOffset .status)

end State

end Sys2Proof.Machine
end

