-- ==== Sys2Proof/Machine/Step.lean ====
section
/-! DEFINITION. One step: one host transaction or one engine event (00_scope.md R7), chosen by the schedule held in the state. -/

namespace Sys2Proof.Machine

/-- The engine's event in the given phase (10_state.md R20): init-done, the completion of the command held in CMD,
or nothing while IDLE (60_exceptions.md R168; log 11). -/
def engineTurn (s : State) : Host.Outcome State Fault Refusal :=
  match s.phase with
  | .init => .next (initDone s)
  | .idle => .next s
  | .exec =>
    match decode s.cmd with
    | .legal i => exec i s
    | .illegal _ => .next (complete (.err .illegalCmd) s)

/-- One step. The schedule says whose turn it is; when it says no more, the engine moves while it has an event to
perform and else the host (log 1, log 14). -/
def step (s : State) : Host.Outcome State Fault Refusal :=
  match s.sched with
  | .host :: rest => .next (s.setSched rest).hostTurn
  | .engine :: rest => engineTurn (s.setSched rest)
  | .hardReset :: rest => .next (hardwareReset (s.setSched rest))
  | [] => if s.busy then engineTurn s else .next s.hostTurn

/-- The state in which the very next step completes the command word of the table's bits `w` of a row of `nbits`
bits: the word has been accepted (60_exceptions.md R151) and it is the engine's turn (log 9). -/
def State.withFetchWord (s : State) (nbits w : Nat) : State :=
  (s.accept (BitVec.ofNat 32 (w % 2 ^ nbits))).setSched (.engine :: s.sched)

end Sys2Proof.Machine
end

