-- ==== Sys2Proof/Machine/Assembler.lean ====
section
/-! DEFINITION. The assembler syntax of host programs as data: lines, pseudo-instructions and their expansion to bus transactions (30_encoding.md R79, R80). Log 15. -/

namespace Sys2Proof.Machine

/-- The two-operand field pseudo-instructions `f<op> <a>, <b>` (30_encoding.md R80). -/
inductive FieldOp where
  | add | mul | div | mulx
deriving DecidableEq, Repr

/-- One line of a host program (30_encoding.md R79, R80). `command` is a bare command mnemonic with its banks. -/
inductive AsmLine where
  | wr (off : Addr) (v : Word)
  | rd (off : Addr)
  | command (i : Instr)
  | wait
  | waitReady
  | ack
  | fieldOp (op : FieldOp) (a b : Word)
  | finvOf (a : Word)
  | mdim (b : BankId) (rows cols : Word)
deriving DecidableEq, Repr

/-- The command of `f<op>`. -/
def FieldOp.instr : FieldOp → Instr
  | .add => .fadd
  | .mul => .fmul
  | .div => .fdiv
  | .mulx => .fmulx

/-- The bus transactions a line stands for (30_encoding.md R79, R80); the polls stay loops of the host (log 8). -/
def AsmLine.expand : AsmLine → List HostOp
  | .wr off v => [.write off v]
  | .rd off => [.read off]
  | .command i => [.write (regOffset .cmd) (encode i)]
  | .wait => [.wait]
  | .waitReady => [.waitReady]
  | .ack => [.write (regOffset .status) 0x0000001C#32]
  | .fieldOp op a b =>
    [.write (regOffset .opa) a, .write (regOffset .opb) b, .write (regOffset .cmd) (encode op.instr), .wait,
      .read (regOffset .result)]
  | .finvOf a => [.write (regOffset .opa) a, .write (regOffset .cmd) (encode .finv), .wait, .read (regOffset .result)]
  | .mdim b rows cols => [.write (regOffset (.mdim b)) ((cols <<< 16) ||| rows)]

/-- A host program: its lines' transactions in order. -/
def assemble (lines : List AsmLine) : List HostOp := lines.flatMap AsmLine.expand

end Sys2Proof.Machine
end

