-- ==== Sys2Proof/Machine/Oracle.lean ====
section
/-! DEFINITION. What the spec gives to check a model against and no command reads: the interpolation encoder (42_reed_solomon.md R141), the polynomial product (40_field.md R90), powers, determinants and the identity matrix (41_matrix.md R113, R118). -/

namespace Sys2Proof.Machine

/-- `M[r][c]`: byte r*k + c of the data, or 0x00 from L on (42_reed_solomon.md R131). -/
def dataAt (s : State) (r c : Nat) : Byte :=
  if r * s.k + c < s.len then s.readByte (dataAddr (r * s.k + c)) else 0#8

/-- `LAGRANGE_ENCODE(data, k, m)[j][r]` (42_reed_solomon.md R141). -/
def lagrangeEncode (s : State) (j r : Nat) : Byte :=
  fsum ((List.range s.k).map fun c =>
    fmul (tables s.params) (dataAt s r c) (lagrangeBasis s.params (tables s.params) s.k c (evalPoint s.params j)))

/-- The product of two polynomials over GF(2), coefficients as bits: the bits of `b` from bit `n - 1` down. -/
def clmulBits (a b : Nat) : Nat → Nat
  | 0 => 0
  | n + 1 => (if b.testBit n then a <<< n else 0) ^^^ clmulBits a b n

/-- The product of the polynomials of two bytes, before reduction (40_field.md R90). -/
def clmul (a b : Byte) : Nat := clmulBits a.toNat b.toNat 8

/-- The remainder of a polynomial over GF(2) by `d`, in at most the given number of subtractions. -/
def polyRem (d : Nat) : Nat → Nat → Nat
  | 0, r => r
  | n + 1, r => if r.log2 < d.log2 ∨ r = 0 then r else polyRem d n (r ^^^ (d <<< (r.log2 - d.log2)))

/-- `x^e` in the field, with `0^0 = 1` (41_matrix.md R113). -/
def fpow (T : Tables) (x : Byte) : Nat → Byte
  | 0 => 0x01#8
  | e + 1 => fmul T x (fpow T x e)

/-- Entry (i, j) of the identity matrix. -/
def delta (i j : Nat) : Byte := if i = j then 0x01#8 else 0#8

/-- The determinant of the n × n matrix with the given rows, by expansion along the first row; there are no signs in
characteristic 2 (41_matrix.md R118). -/
def det (T : Tables) : Nat → Mat → Byte
  | 0, _ => 0x01#8
  | n + 1, a =>
    fsum ((List.range (n + 1)).map fun j =>
      fmul T (a.entry 0 j) (det T n ((a.drop 1).map fun row => row.eraseIdx j)))

end Sys2Proof.Machine
end

