-- ==== Sys2Proof/Safety.lean ====
section
/-! DEFINITION. What claims about the block are stated in: the constraint on the parameters, the invariant of the machine, how a command ends, and the sets of words, offsets and bytes the spec names. -/

namespace Sys2Proof

open Sys2Proof.Machine

/-- A 9-bit polynomial of degree 8 that no polynomial of degree 1 to 4 divides (00_scope.md R8, FIELD_POLY). -/
def irreducible (poly : BitVec 9) : Bool :=
  poly.getLsbD 8 && (List.range' 2 30).all fun d => decide (polyRem d 9 poly.toNat ≠ 0)

/-- FIELD_GEN is primitive: EXP[0..254] are 255 distinct nonzero bytes (00_scope.md R8). -/
def primitive (P : Params) : Bool :=
  decide (expEntries P).Nodup && (expEntries P).all fun x => decide (x ≠ 0#8)

/-- The evaluation points EVAL_POINT(0..COL_MAX-1) are pairwise distinct (00_scope.md R8). -/
def distinctPoints (P : Params) : Bool :=
  decide (P.evalPoints.length = Config.colMax) && decide P.evalPoints.Nodup

/-- The whole constraint of 00_scope.md R8 on the model parameters. -/
def Params.ok (P : Params) : Bool :=
  irreducible P.fieldPoly && primitive P && distinctPoints P

/-- The four conditions of 30_encoding.md R73 for a legal word, with the fields each opcode uses as R75 lists them. -/
def legalWord (w : Word) : Bool :=
  let d := dField w
  let a := aField w
  let b := bField w
  decide (rsvField w = 0#12) &&
    match (opField w).toNat with
    | 0x01 | 0x02 | 0x03 | 0x04 | 0x05 | 0x20 | 0x21 => decide (d = 0#4) && decide (a = 0#4) && decide (b = 0#4)
    | 0x10 => decide (d.extractLsb' 2 2 = 0#2) && decide (a.extractLsb' 2 2 = 0#2) && decide (b.extractLsb' 2 2 = 0#2)
    | 0x11 => decide (d.extractLsb' 2 2 = 0#2) && decide (a.extractLsb' 2 2 = 0#2) && decide (b = 0#4)
    | 0x12 => decide (d.extractLsb' 2 2 = 0#2) && decide (a = 0#4) && decide (b = 0#4)
    | _ => false

/-- The reserved offsets (93_implementation_defined.md V1): the word at each lies in no row of 20_memory.md R53. -/
def reservedOffset (a : Nat) : Bool :=
  (decide (0x00C ≤ a) && decide (a < 0x010)) || (decide (0x01C ≤ a) && decide (a < 0x020))
    || (decide (0x050 ≤ a) && decide (a < 0x1000)) || (decide (0x2000 ≤ a) && decide (a < 0x4000))
    || (decide (0x6000 ≤ a) && decide (a < 0x8000)) || (decide (0xA000 ≤ a) && decide (a < 0x10000))

namespace Machine

/-- The codes a command can complete with (60_exceptions.md R150): not 0x05 and none from 0x08 on. -/
def producedCode (c : Byte) : Bool :=
  decide (c ∈ [0x00#8, 0x01#8, 0x02#8, 0x03#8, 0x04#8, 0x06#8, 0x07#8])

/-- Completion with the error `code`: nothing changes but ERRCODE, DONE, ERROR and the phase (60_exceptions.md R152, R153). -/
def failed (code : Byte) (s : State) : State :=
  { s with errcode := code, done := true, error := true, phase := .idle }

/-- The STATUS and phase part of a completion with NONE (60_exceptions.md R152); ERROR keeps its value. -/
def succeeded (s : State) : State :=
  { s with errcode := 0x00#8, done := true, phase := .idle }

/-- The registers have their reset values (70_reset_and_hazards.md R180), CTRL.IRQ_EN and STATUS.OVERRUN aside. -/
def registersAtReset (s : State) : Prop :=
  s.done = false ∧ s.error = false ∧ s.errcode = 0#8 ∧ s.cmd = 0#32 ∧ s.opa = 0#8 ∧ s.opb = 0#8 ∧
  s.result = 0#8 ∧ s.rowCount = 0#16 ∧ s.origLen = 0#16 ∧ s.dataChunks = 0#8 ∧ s.codeChunks = 0#8 ∧
  s.valid = 0#32 ∧ ∀ b : BankId, s.mdim b = { rows := 0#6, cols := 0#6 }

/-- The invariant of the machine: the parameters meet their constraint (00_scope.md R8), the buffers are in canonical
form, ROW_COUNT is at most ROW_MAX (10_state.md R32), ERRCODE is a produced code (60_exceptions.md R150), and in phase
INIT the registers that only accepted writes and completions change are at reset (70_reset_and_hazards.md R180, R186). -/
structure State.Inv (s : State) : Prop where
  params_ok : s.params.ok = true
  mem_wf : Memory.wf s.mem = true
  rowCount_le : s.rowCount.toNat ≤ Config.rowMax
  errcode_produced : producedCode s.errcode = true
  init_registers : s.phase = .init → registersAtReset s

/-- The buffer bytes a running command would write (70_reset_and_hazards.md R183): the offsets the rule lists for each
command, the new shape being that of its rule. -/
def destination (i : Instr) (s : State) (a : Nat) : Prop :=
  match i with
  | .mmul d x y => ∃ bx by', bankOf x = some bx ∧ bankOf y = some by' ∧
      ∃ r c, r < (s.mdim bx).rows.toNat ∧ c < (s.mdim by').cols.toNat ∧ a = bankAddr d.toNat r c
  | .minv d x => ∃ bx, bankOf x = some bx ∧
      ∃ r c, r < (s.mdim bx).rows.toNat ∧ c < (s.mdim bx).rows.toNat ∧ a = bankAddr d.toNat r c
  | .genmat d => ∃ r c, r < s.total ∧ c < s.k ∧ a = bankAddr d.toNat r c
  | .encode => ∃ j r, j < s.total ∧ r < s.rc ∧ a = cwAddr j r
  | .decode => ∃ p, p < s.len ∧ a = dataAddr p
  | .fadd => False
  | .fmul => False
  | .fdiv => False
  | .finv => False
  | .fmulx => False

/-- It is the engine's turn: the schedule names it, or names nobody and the engine has an event to perform (log 1). -/
def engineNext (s : State) : Prop :=
  (∃ rest, s.sched = .engine :: rest) ∨ (s.sched = [] ∧ s.phase ≠ .idle)

/-- It is the host's turn, likewise (log 1). -/
def hostNext (s : State) : Prop :=
  (∃ rest, s.sched = .host :: rest) ∨ (s.sched = [] ∧ s.phase = .idle)

/-- The state with the turn just taken off the schedule. -/
def popTurn (s : State) : State := { s with sched := s.sched.tail }

/-- The number of columns among 0..total-1 that VALID marks (42_reed_solomon.md R134, R135). -/
def validCount (s : State) : Nat :=
  (List.range s.total).countP fun j => s.valid.getLsbD j

end Machine

end Sys2Proof
end

