-- ==== Sys2Proof/Certificates/Slice0/Obligations.lean ====
section
/-! DEFINITION. The statements for the provers. Each docstring names the rule of spec/ it formalises. -/

open Sys2Proof Sys2Proof.Machine

/-! ### Command words -/

/-- Encoding then decoding gives the command back, for every legal value of every bank field (30_encoding.md R70, R75). -/
def Obligations.DecodeOfEncode : Prop :=
  ∀ i : Instr, i.WellFormed = true → decode (encode i) = .legal i

/-- A word the decoder accepts is the word of the command it gives, and the command is well formed: no bit of a word
is dropped (30_encoding.md R73). -/
def Obligations.EncodeOfDecode : Prop :=
  ∀ (w : Word) (i : Instr), decode w = .legal i → i.WellFormed = true ∧ encode i = w

/-- 30_encoding.md R76: every word is exactly one row of R75 or illegal, and no word selects two rows. -/
def Obligations.LegalExactlyWhenOneRowMatches : Prop :=
  ∀ w : Word,
    ((∃ i, decode w = .legal i) ↔ (opcodeRows.filter fun r => r.selects w).length = 1) ∧
    ((∃ why, decode w = .illegal why) ↔ (opcodeRows.filter fun r => r.selects w).length = 0) ∧
    opcodeRows.Pairwise fun r r' => ¬(r.selects w = true ∧ r'.selects w = true)

/-- 30_encoding.md R81, the example encodings, through the assembler's expansion of the mnemonics (R80). -/
def Obligations.PrintedWordsDecode : Prop :=
  (AsmLine.command (.mmul 2#4 0#4 1#4)).expand = [.write 0x018#16 0x00010210#32] ∧
  (AsmLine.command (.minv 1#4 0#4)).expand = [.write 0x018#16 0x00000111#32] ∧
  (AsmLine.command (.genmat 3#4)).expand = [.write 0x018#16 0x00000312#32] ∧
  decode 0x00010210#32 = .legal (.mmul 2#4 0#4 1#4) ∧
  decode 0x00000111#32 = .legal (.minv 1#4 0#4) ∧
  decode 0x00000312#32 = .legal (.genmat 3#4) ∧
  decode 0x00000410#32 = .illegal .bankOutOfRange ∧
  decode 0x00100001#32 = .illegal .reservedBits ∧
  decode 0x00001001#32 = .illegal .unusedField

/-- 30_encoding.md R73: a word that fails one of the four conditions completes with ILLEGAL_CMD (0x07) and has no other
effect, whatever the state holds. -/
def Obligations.IllegalWordCompletesWithIllegalCmd : Prop :=
  (∀ w : Word, legalWord w = true ↔ (opcodeRows.filter fun r => r.selects w).length = 1) ∧
  ∀ s : State, s.phase = .exec → engineNext s → legalWord s.cmd = false →
    step s = .next (failed 0x07#8 (popTurn s))

/-- The model's reading of 30_encoding.md R71 and R73 for a command with a bank field of 4 or more (log 12, DEDUCED):
its word is illegal, and its meaning is the completion with ILLEGAL_CMD. -/
def Obligations.IllFormedCommandIsIllegal : Prop :=
  ∀ (i : Instr) (s : State), i.WellFormed = false →
    exec i s = .next (failed 0x07#8 s) ∧ ∃ why, decode (encode i) = .illegal why

/-- When the engine's turn comes in phase EXEC and the word in CMD decodes to a command, the step is that command's
meaning, on the state with the turn taken off the schedule (60_exceptions.md R152; the schedule is log 1). When the host's
turn comes, the step is the next operation of the host, taken off its list (20_memory.md R51, R59): a read or a write of
the port, or one read of STATUS by a poll, which stays in the list while it reads BUSY = 1 or, for waitready, READY = 0
or BUSY = 1 (30_encoding.md R80; the list is log 8). A turn with nothing to do changes the schedule only (log 11). -/
def Obligations.StepRunsTheDecodedCommand : Prop :=
  (∀ (s : State) (i : Instr), s.phase = .exec → engineNext s → decode s.cmd = .legal i →
    step s = exec i (popTurn s)) ∧
  (∀ s : State, hostNext s →
    (∀ a rest, s.host = .read a :: rest → step s = .next ({ popTurn s with host := rest }.hostRead a)) ∧
    (∀ a w rest, s.host = .write a w :: rest → step s = .next ({ popTurn s with host := rest }.hostWrite a w)) ∧
    (∀ rest, s.host = .wait :: rest →
      (s.statusWord.getLsbD 1 = true → step s = .next ((popTurn s).hostRead 0x014#16)) ∧
      (s.statusWord.getLsbD 1 = false → step s = .next ({ popTurn s with host := rest }.hostRead 0x014#16))) ∧
    (∀ rest, s.host = .waitReady :: rest →
      (s.statusWord.getLsbD 0 = false ∨ s.statusWord.getLsbD 1 = true →
        step s = .next ((popTurn s).hostRead 0x014#16)) ∧
      (s.statusWord.getLsbD 0 = true → s.statusWord.getLsbD 1 = false →
        step s = .next ({ popTurn s with host := rest }.hostRead 0x014#16))) ∧
    (s.host = [] → step s = .next (popTurn s))) ∧
  ∀ s : State, s.phase = .idle → engineNext s → step s = .next (popTurn s)

/-! ### Field commands -/

/-- 40_field.md R93: FADD's word is 0x00000001; it writes a xor b to RESULT and completes with ERRCODE 0x00; nothing
else changes. -/
def Obligations.FaddWritesXor : Prop :=
  encode .fadd = 0x00000001#32 ∧
  ∀ s : State, exec .fadd s = .next (succeeded { s with result := s.opa ^^^ s.opb })

/-- FMUL completes on every state: RESULT is 0 for a zero operand and else EXP[(LOG a + LOG b) mod 255]; nothing else
but the completion flags changes (40_field.md section 2, FMUL). -/
def Obligations.FmulWritesTableProduct : Prop :=
  encode .fmul = 0x00000002#32 ∧
  ∀ s : State, exec .fmul s = .next (succeeded { s with
    result := if s.opa = 0#8 ∨ s.opb = 0#8 then 0#8
      else (tables s.params).expAt (((tables s.params).logAt s.opa + (tables s.params).logAt s.opb) % 255) })

/-- FDIV: DIV_BY_ZERO when b = 0, also for a = 0, with RESULT unchanged; else 0 for a = 0 and
EXP[(LOG a - LOG b + 255) mod 255] (40_field.md section 2, FDIV). -/
def Obligations.FdivWritesQuotientOrDivByZero : Prop :=
  encode .fdiv = 0x00000003#32 ∧
  (∀ s : State, s.opb = 0#8 → exec .fdiv s = .next (failed 0x01#8 s)) ∧
  ∀ s : State, s.opb ≠ 0#8 → exec .fdiv s = .next (succeeded { s with
    result := if s.opa = 0#8 then 0#8
      else (tables s.params).expAt (((tables s.params).logAt s.opa + 255 - (tables s.params).logAt s.opb) % 255) })

/-- FINV: DIV_BY_ZERO when a = 0, with RESULT unchanged; else EXP[(255 - LOG a) mod 255] (40_field.md section 2, FINV). -/
def Obligations.FinvWritesInverseOrDivByZero : Prop :=
  encode .finv = 0x00000004#32 ∧
  (∀ s : State, s.opa = 0#8 → exec .finv s = .next (failed 0x01#8 s)) ∧
  ∀ s : State, s.opa ≠ 0#8 → exec .finv s = .next (succeeded { s with
    result := (tables s.params).expAt ((255 - (tables s.params).logAt s.opa) % 255) })

/-- FMULX completes on every state with the product of the operands as polynomials, reduced modulo FIELD_POLY, for every
FIELD_POLY of degree 8 (40_field.md R90 for the product, section 2 for the command). -/
def Obligations.FmulxWritesPolynomialProduct : Prop :=
  encode .fmulx = 0x00000005#32 ∧
  ∀ s : State, exec .fmulx s = .next (succeeded { s with result := fmulx s.params s.opa s.opb }) ∧
    (s.params.fieldPoly.getLsbD 8 = true →
      (fmulx s.params s.opa s.opb).toNat = polyRem s.params.fieldPoly.toNat 16 (clmul s.opa s.opb))

/-- The default parameters meet the constraint: 0x11D is irreducible, 0x02 is primitive for it, and the points j are
distinct (00_scope.md section 4). -/
def Obligations.DefaultParametersMeetTheirConstraint : Prop :=
  Params.default.ok = true

/-- 40_field.md R92: `exp[log[x]] == x` for all nonzero x, `log[1] == 0`, `LOG[EXP[i]] = i` for i in 0..254, and no
function of the field reads LOG[0] or EXP[255]: tables that differ only there give the same results. -/
def Obligations.TablesAreInverse : Prop :=
  ∀ P : Params, P.ok = true →
    (∀ x : Byte, x ≠ 0#8 → (tables P).expAt ((tables P).logAt x) = x) ∧
    (tables P).logAt 0x01#8 = 0 ∧
    (∀ i : Nat, i ≤ 254 → (tables P).logAt ((tables P).expAt i) = i) ∧
    ∀ T : Tables, (∀ i : Nat, i ≤ 254 → T.expAt i = (tables P).expAt i) →
      (∀ x : Byte, x ≠ 0#8 → T.logAt x = (tables P).logAt x) →
      ∀ a b : Byte, fmul T a b = fmul (tables P) a b ∧ fdiv T a b = fdiv (tables P) a b ∧
        finv T a = finv (tables P) a

/-- The table product equals the shift-and-reduce product for all operands, whatever parameters meet their constraint
(40_field.md section 2: "equivalent for all inputs"). -/
def Obligations.TableProductEqualsShiftReduce : Prop :=
  ∀ P : Params, P.ok = true → ∀ a b : Byte, fmul (tables P) a b = fmulx P a b

/-- 40_field.md R99 and R100: the laws of field addition and multiplication. -/
def Obligations.AdditionAndMultiplicationLaws : Prop :=
  (∀ a b c : Byte, fadd a b = fadd b a ∧ fadd (fadd a b) c = fadd a (fadd b c) ∧ fadd a 0#8 = a ∧ fadd a a = 0#8) ∧
  ∀ P : Params, P.ok = true → ∀ a b c : Byte,
    fmul (tables P) a b = fmul (tables P) b a ∧
    fmul (tables P) (fmul (tables P) a b) c = fmul (tables P) a (fmul (tables P) b c) ∧
    fmul (tables P) a 0x01#8 = a ∧
    fmul (tables P) a 0#8 = 0#8 ∧
    fmul (tables P) a (fadd b c) = fadd (fmul (tables P) a b) (fmul (tables P) a c) ∧
    (fmul (tables P) a b = 0#8 → a = 0#8 ∨ b = 0#8)

/-- 40_field.md R101 and R102: division and inverse, for every FIELD_POLY and FIELD_GEN that meet their constraint. -/
def Obligations.DivisionAndInverseLaws : Prop :=
  ∀ P : Params, P.ok = true →
    (∀ a b : Byte, a ≠ 0#8 → b ≠ 0#8 → ∃ ia ib,
      finv (tables P) a = some ia ∧ finv (tables P) b = some ib ∧
      fdiv (tables P) a b = some (fmul (tables P) a ib) ∧
      fmul (tables P) ia a = 0x01#8 ∧ fmul (tables P) a ia = 0x01#8 ∧
      finv (tables P) ia = some a ∧
      fdiv (tables P) 0#8 b = some 0#8) ∧
    (∀ a b : Byte, b ≠ 0#8 → ∃ q, fdiv (tables P) a b = some q ∧ fmul (tables P) q b = a) ∧
    ∀ a : Byte, fmul (tables P) a 0#8 = 0#8 ∧ fadd a a = 0#8

/-- FIELD_GEN changes the tables but not any command's result: two parameter sets with one FIELD_POLY multiply, divide
and invert alike, and where they also have the same EVAL_POINT, every command ends with the same effect and code, and in
the same state but for the parameters themselves (00_scope.md section 4, 93_implementation_defined.md U7). -/
def Obligations.GeneratorChangesNoResult : Prop :=
  ∀ P Q : Params, P.ok = true → Q.ok = true → P.fieldPoly = Q.fieldPoly →
    (∀ a b : Byte,
      fmul (tables P) a b = fmul (tables Q) a b ∧ fdiv (tables P) a b = fdiv (tables Q) a b ∧
      finv (tables P) a = finv (tables Q) a) ∧
    (P.evalPoints = Q.evalPoints → ∀ (i : Instr) (s : State),
      instrResult i { s with params := P } = instrResult i { s with params := Q } ∧
      ∃ t, exec i { s with params := P } = .next t ∧ exec i { s with params := Q } = .next { t with params := Q })

/-! ### Matrix commands -/

/-- MMUL on legal banks with valid shapes and equal inner dimensions completes with NONE; every element inside the new
shape is the product's, computed from the operands as they stood before, also when the destination is a source; MDIM of
the destination is (ra, cb); every other byte and register keeps its value (41_matrix.md section 2 MMUL, section 3
aliasing; 10_state.md section 3). -/
def Obligations.MmulWritesProduct : Prop :=
  ∀ (s : State) (fd fa fb : BankField) (d a b : BankId),
    fd.toNat = d.val → fa.toNat = a.val → fb.toNat = b.val →
    1 ≤ (s.mdim a).rows.toNat → (s.mdim a).rows.toNat ≤ 32 → 1 ≤ (s.mdim a).cols.toNat → (s.mdim a).cols.toNat ≤ 32 →
    1 ≤ (s.mdim b).cols.toNat → (s.mdim b).cols.toNat ≤ 32 →
    (s.mdim a).cols = (s.mdim b).rows →
    ∃ m : Memory,
      let t := succeeded (({ s with mem := m }).setMdim d { rows := (s.mdim a).rows, cols := (s.mdim b).cols })
      exec (.mmul fd fa fb) s = .next t ∧
      (∀ i j, i < (s.mdim a).rows.toNat → j < (s.mdim b).cols.toNat →
        t.readByte (bankAddr d.val i j) = fsum ((List.range (s.mdim a).cols.toNat).map fun x =>
          fmul (tables s.params) (s.readByte (bankAddr a.val i x)) (s.readByte (bankAddr b.val x j)))) ∧
      ∀ x, (∀ i j, i < (s.mdim a).rows.toNat → j < (s.mdim b).cols.toNat → x ≠ bankAddr d.val i j) →
        t.readByte x = s.readByte x

/-- The shape checks of MMUL and MINV in their order: PARAM_RANGE for an invalid shape, then DIM_MISMATCH; nothing else
changes (60_exceptions.md section 2, the order of checks; 41_matrix.md section 2). -/
def Obligations.MatrixShapeChecks : Prop :=
  ∀ (s : State) (fd fa fb : BankField) (d a b : BankId),
    fd.toNat = d.val → fa.toNat = a.val → fb.toNat = b.val →
    let bad (sh : Shape) : Prop :=
      sh.rows.toNat < 1 ∨ 32 < sh.rows.toNat ∨ sh.cols.toNat < 1 ∨ 32 < sh.cols.toNat
    (bad (s.mdim a) ∨ bad (s.mdim b) → exec (.mmul fd fa fb) s = .next (failed 0x06#8 s)) ∧
    (¬bad (s.mdim a) → ¬bad (s.mdim b) → (s.mdim a).cols ≠ (s.mdim b).rows →
      exec (.mmul fd fa fb) s = .next (failed 0x02#8 s)) ∧
    (bad (s.mdim a) → exec (.minv fd fa) s = .next (failed 0x06#8 s)) ∧
    (¬bad (s.mdim a) → (s.mdim a).rows ≠ (s.mdim a).cols → exec (.minv fd fa) s = .next (failed 0x02#8 s))

/-- MINV on a square matrix of valid shape: where the elimination of 41_matrix.md R112 ends, the bank holds its result,
MDIM is (n, n), and every other byte and register keeps its value; where it finds no pivot, SINGULAR and nothing else
changes (41_matrix.md section 2, MINV). -/
def Obligations.MinvWritesEliminationResult : Prop :=
  ∀ (s : State) (fd fa : BankField) (d a : BankId),
    fd.toNat = d.val → fa.toNat = a.val →
    1 ≤ (s.mdim a).rows.toNat → (s.mdim a).rows.toNat ≤ 32 → (s.mdim a).rows = (s.mdim a).cols →
    (matInv (tables s.params) (s.mdim a).rows.toNat (s.matOf a) = none →
      exec (.minv fd fa) s = .next (failed 0x03#8 s)) ∧
    ∀ x : Mat, matInv (tables s.params) (s.mdim a).rows.toNat (s.matOf a) = some x →
      ∃ m : Memory,
        let t := succeeded (({ s with mem := m }).setMdim d { rows := (s.mdim a).rows, cols := (s.mdim a).rows })
        exec (.minv fd fa) s = .next t ∧
        (∀ i j, i < (s.mdim a).rows.toNat → j < (s.mdim a).rows.toNat →
          t.readByte (bankAddr d.val i j) = x.entry i j) ∧
        ∀ y, (∀ i j, i < (s.mdim a).rows.toNat → j < (s.mdim a).rows.toNat → y ≠ bankAddr d.val i j) →
          t.readByte y = s.readByte y

/-- 41_matrix.md R118: MINV raises SINGULAR exactly when A has determinant 0; otherwise it writes the unique matrix X
with A X = X A = I. -/
def Obligations.MinvInvertsExactlyTheNonsingular : Prop :=
  ∀ (s : State) (fd fa : BankField) (d a : BankId) (n : Nat),
    s.params.ok = true → fd.toNat = d.val → fa.toNat = a.val →
    1 ≤ n → n ≤ 32 → (s.mdim a).rows.toNat = n → (s.mdim a).cols.toNat = n →
    let T := tables s.params
    let A : Nat → Nat → Byte := fun i j => s.readByte (bankAddr a.val i j)
    let isInverse (X Y : Nat → Nat → Byte) : Prop :=
      ∀ i j, i < n → j < n → fsum ((List.range n).map fun x => fmul T (X i x) (Y x j)) = delta i j
    (det T n (s.matOf a) = 0#8 → exec (.minv fd fa) s = .next (failed 0x03#8 s)) ∧
    (det T n (s.matOf a) ≠ 0#8 → ∃ t, exec (.minv fd fa) s = .next t ∧ t.errcode = 0x00#8 ∧
      let X : Nat → Nat → Byte := fun i j => t.readByte (bankAddr d.val i j)
      isInverse A X ∧ isInverse X A ∧
      ∀ Y : Nat → Nat → Byte, isInverse A Y → ∀ i j, i < n → j < n → Y i j = X i j)

/-- GENMAT with k and m in range completes with NONE: the bank holds G(k, m), identity rows and then the Lagrange rows,
MDIM is (k + m, k), and every other byte and register keeps its value (41_matrix.md sections 2, GENMAT). -/
def Obligations.GenmatWritesGenerator : Prop :=
  ∀ (s : State) (fd : BankField) (d : BankId), fd.toNat = d.val → 1 ≤ s.k → s.k + s.m ≤ 32 →
    ∃ m : Memory,
      let t := succeeded (({ s with mem := m }).setMdim d
        { rows := BitVec.ofNat 6 (s.k + s.m), cols := BitVec.ofNat 6 s.k })
      exec (.genmat fd) s = .next t ∧
      (∀ j c, j < s.k → c < s.k → t.readByte (bankAddr d.val j c) = delta j c) ∧
      (∀ j c, s.k ≤ j → j < s.k + s.m → c < s.k →
        t.readByte (bankAddr d.val j c) =
          fprod (tables s.params) (((List.range s.k).filter fun x => decide (x ≠ c)).map fun x =>
            fquot (tables s.params) (evalPoint s.params j ^^^ evalPoint s.params x)
              (evalPoint s.params c ^^^ evalPoint s.params x))) ∧
      ∀ y, (∀ j c, j < s.k + s.m → c < s.k → y ≠ bankAddr d.val j c) → t.readByte y = s.readByte y

/-- 41_matrix.md R116: GENMAT raises PARAM_RANGE exactly when k < 1 or k + m > COL_MAX, the sum computed exactly. -/
def Obligations.GenmatRangeCheck : Prop :=
  ∀ (s : State) (fd : BankField), fd.toNat < 4 →
    ((s.dataChunks.toNat < 1 ∨ s.dataChunks.toNat + s.codeChunks.toNat > 32) →
      exec (.genmat fd) s = .next (failed 0x06#8 s)) ∧
    (¬(s.dataChunks.toNat < 1 ∨ s.dataChunks.toNat + s.codeChunks.toNat > 32) →
      ∃ t, exec (.genmat fd) s = .next t ∧ t.errcode = 0x00#8)

/-- G(k, m) carries the values at x_0..x_{k-1} of every power of x below k to its values at all points: G V_top = V, the
form the spec gives as G = V inv(V_top) (41_matrix.md section 2, generator matrix). -/
def Obligations.GeneratorInterpolatesPowers : Prop :=
  ∀ (P : Params) (k m j e : Nat), P.ok = true → 1 ≤ k → k + m ≤ 32 → j < k + m → e < k →
    fsum ((List.range k).map fun c =>
      fmul (tables P) (genEntry P (tables P) k j c) (fpow (tables P) (evalPoint P c) e)) =
    fpow (tables P) (evalPoint P j) e

/-- 41_matrix.md R117: rows 0..k-1 of G are the identity, every k distinct rows of G form an invertible matrix, and so
DECODE never completes with SINGULAR. -/
def Obligations.GeneratorIsMds : Prop :=
  (∀ (P : Params) (k m : Nat) (rows : List Nat), P.ok = true → 1 ≤ k → k + m ≤ 32 →
    (∀ j c, j < k → c < k → genEntry P (tables P) k j c = delta j c) ∧
    (rows.length = k → rows.Nodup → (∀ j ∈ rows, j < k + m) →
      matInv (tables P) k (genRows P (tables P) k rows) ≠ none)) ∧
  ∀ s t : State, s.params.ok = true → exec .decode s = .next t → t.errcode ≠ 0x03#8

/-! ### Reed-Solomon commands -/

/-- ENCODE with a stream in range completes with NONE: CW[j][r] is row j of G applied to data row r, padded with 0x00,
for j < total and r < rc; VALID = (1 << total) - 1; ROW_COUNT = rc; every other byte and register keeps its value
(42_reed_solomon.md sections 1 and 2). -/
def Obligations.EncodeWritesCodeword : Prop :=
  ∀ s : State, 1 ≤ s.k → s.k + s.m ≤ 32 → s.len ≤ s.k * 256 →
    let rc := (s.len + s.k - 1) / s.k
    ∃ m : Memory,
      let t := succeeded { s with
        mem := m, valid := BitVec.ofNat 32 (2 ^ (s.k + s.m) - 1), rowCount := BitVec.ofNat 16 rc }
      exec .encode s = .next t ∧
      (∀ j r, j < s.k + s.m → r < rc →
        t.readByte (cwAddr j r) = fsum ((List.range s.k).map fun c =>
          fmul (tables s.params) (genEntry s.params (tables s.params) s.k j c) (dataAt s r c))) ∧
      ∀ y, (∀ j r, j < s.k + s.m → r < rc → y ≠ cwAddr j r) → t.readByte y = s.readByte y

/-- 42_reed_solomon.md R133: a successful ENCODE leaves the stream registers, all columns valid, ROW_COUNT = rc, and the
data columns verbatim: CW[c][r] = M[r][c] for c < k. -/
def Obligations.EncodeIsSystematic : Prop :=
  ∀ s : State, s.params.ok = true → 1 ≤ s.k → s.k + s.m ≤ 32 → s.len ≤ s.k * 256 →
    ∃ t, exec .encode s = .next t ∧ t.errcode = 0x00#8 ∧
      t.origLen = s.origLen ∧ t.dataChunks = s.dataChunks ∧ t.codeChunks = s.codeChunks ∧
      (∀ j, j < 32 → t.valid.getLsbD j = decide (j < s.k + s.m)) ∧
      t.rowCount.toNat = (s.len + s.k - 1) / s.k ∧
      ∀ c r, c < s.k → r < (s.len + s.k - 1) / s.k →
        t.readByte (cwAddr c r) = if r * s.k + c < s.len then s.readByte (dataAddr (r * s.k + c)) else 0#8

/-- 42_reed_solomon.md R141: ENCODE's columns are bit-identical to the interpolation encoder's, for all j < total and
r < rc, and L_c(x_j) is 1 if c = j and 0 otherwise for j < k. -/
def Obligations.EncodeEqualsInterpolation : Prop :=
  ∀ s : State, s.params.ok = true → 1 ≤ s.k → s.k + s.m ≤ 32 → s.len ≤ s.k * 256 →
    (∃ t, exec .encode s = .next t ∧ ∀ j r, j < s.k + s.m → r < (s.len + s.k - 1) / s.k →
      t.readByte (cwAddr j r) = lagrangeEncode s j r) ∧
    ∀ j c, j < s.k → c < s.k →
      lagrangeBasis s.params (tables s.params) s.k c (evalPoint s.params j) = delta j c

/-- 42_reed_solomon.md R130: ENCODE and DECODE raise PARAM_RANGE, and change nothing else, when k < 1, k + m > COL_MAX or
L > k * ROW_MAX, and never otherwise; a stream in range fits the DATA buffer and the CW columns; L = 0 is legal. -/
def Obligations.StreamRangeCheck : Prop :=
  ∀ s : State,
    ((s.k < 1 ∨ s.k + s.m > 32 ∨ s.len > s.k * 256) →
      exec .encode s = .next (failed 0x06#8 s) ∧ exec .decode s = .next (failed 0x06#8 s)) ∧
    (¬(s.k < 1 ∨ s.k + s.m > 32 ∨ s.len > s.k * 256) →
      (∃ t, exec .encode s = .next t ∧ t.errcode = 0x00#8) ∧
      (∃ t, exec .decode s = .next t ∧ t.errcode ≠ 0x06#8) ∧
      s.len ≤ Config.dataBytes ∧ (s.len + s.k - 1) / s.k ≤ Config.rowMax)

/-- DECODE with a stream in range and at least k valid columns: the k valid columns of lowest index are selected, and
where Gs is inverted to H, DATA[p] for p < L is row p mod k of H applied to the selected columns at row p / k; ROW_COUNT
= rc; VALID, CW and every other byte and register keep their values; where Gs has no pivot, SINGULAR and nothing else
changes (42_reed_solomon.md section 3). -/
def Obligations.DecodeWritesRecoveredData : Prop :=
  ∀ (s : State) (sel : List Nat), 1 ≤ s.k → s.k + s.m ≤ 32 → s.len ≤ s.k * 256 →
    sel = ((List.range (s.k + s.m)).filter fun j => s.valid.getLsbD j).take s.k → sel.length = s.k →
    (matInv (tables s.params) s.k (genRows s.params (tables s.params) s.k sel) = none →
      exec .decode s = .next (failed 0x03#8 s)) ∧
    ∀ h : Mat, matInv (tables s.params) s.k (genRows s.params (tables s.params) s.k sel) = some h →
      ∃ m : Memory,
        let t := succeeded { s with mem := m, rowCount := BitVec.ofNat 16 ((s.len + s.k - 1) / s.k) }
        exec .decode s = .next t ∧
        (∀ p, p < s.len → t.readByte (dataAddr p) = fsum ((List.range s.k).map fun i =>
          fmul (tables s.params) (h.entry (p % s.k) i) (s.readByte (cwAddr (sel.getD i 0) (p / s.k))))) ∧
        ∀ y, (∀ p, p < s.len → y ≠ dataAddr p) → t.readByte y = s.readByte y

/-- DECODE with a stream in range and fewer than k valid columns among 0..total-1 raises INSUFFICIENT_SHARES and changes
nothing else, also when L = 0 and whatever VALID holds from bit total on (42_reed_solomon.md section 3). -/
def Obligations.DecodeNeedsEnoughShares : Prop :=
  ∀ s : State, 1 ≤ s.k → s.k + s.m ≤ 32 → s.len ≤ s.k * 256 →
    ((List.range (s.k + s.m)).countP fun j => s.valid.getLsbD j) < s.k →
    exec .decode s = .next (failed 0x04#8 s)

/-- When every column 0..k-1 is valid DECODE copies the data columns back, for every L in range
(42_reed_solomon.md section 3). -/
def Obligations.DecodeCopiesValidDataColumns : Prop :=
  ∀ s : State, s.params.ok = true → 1 ≤ s.k → s.k + s.m ≤ 32 → s.len ≤ s.k * 256 →
    (∀ j, j < s.k → s.valid.getLsbD j = true) →
    ∃ t, exec .decode s = .next t ∧ t.errcode = 0x00#8 ∧ t.valid = s.valid ∧
      t.rowCount.toNat = (s.len + s.k - 1) / s.k ∧
      ∀ p, p < s.len → t.readByte (dataAddr p) = s.readByte (cwAddr (p % s.k) (p / s.k))

/-- 42_reed_solomon.md R140: take any data and any k and m in range, and an ENCODE followed by a DECODE with the same
stream registers and no change to CW at rows below rc. (a) With VALID as ENCODE left it, and (b) with any VALID that
marks at least k of the columns, DECODE writes the original data; (c) with fewer it raises INSUFFICIENT_SHARES. -/
def Obligations.ErasureTolerance : Prop :=
  ∀ s t u : State, s.params.ok = true → 1 ≤ s.k → s.k + s.m ≤ 32 → s.len ≤ s.k * 256 →
    exec .encode s = .next t →
    u.params = s.params → u.origLen = s.origLen → u.dataChunks = s.dataChunks → u.codeChunks = s.codeChunks →
    (∀ j r, j < s.k + s.m → r < (s.len + s.k - 1) / s.k → u.readByte (cwAddr j r) = t.readByte (cwAddr j r)) →
    (u.valid = t.valid → s.k ≤ validCount u) ∧
    (s.k ≤ validCount u → ∃ v, exec .decode u = .next v ∧ v.errcode = 0x00#8 ∧
      ∀ p, p < s.len → v.readByte (dataAddr p) = s.readByte (dataAddr p)) ∧
    (validCount u < s.k → exec .decode u = .next (failed 0x04#8 u))

/-- ENCODE's outcome depends on the parameters, k, m, L and DATA[0..L-1] alone: two states that agree on them complete
with the same code and, when it is NONE, leave the same codeword, VALID and ROW_COUNT (10_state.md section 3;
20_memory.md section 5). -/
def Obligations.EncodeReadsOnlyItsData : Prop :=
  ∀ s s' t t' : State, s'.params = s.params → s'.origLen = s.origLen → s'.dataChunks = s.dataChunks →
    s'.codeChunks = s.codeChunks → (∀ p, p < s.len → s'.readByte (dataAddr p) = s.readByte (dataAddr p)) →
    exec .encode s = .next t → exec .encode s' = .next t' →
    t'.errcode = t.errcode ∧
    (t.errcode = 0x00#8 → t'.valid = t.valid ∧ t'.rowCount = t.rowCount ∧
      ∀ j r, j < s.total → r < s.rc → t'.readByte (cwAddr j r) = t.readByte (cwAddr j r))

/-- DECODE's outcome depends on the parameters, k, m, L, the VALID bits below total and the selected columns at rows
below rc alone (42_reed_solomon.md section 3; 20_memory.md section 5). -/
def Obligations.DecodeReadsOnlySelectedColumns : Prop :=
  ∀ s s' t t' : State, s'.params = s.params → s'.origLen = s.origLen → s'.dataChunks = s.dataChunks →
    s'.codeChunks = s.codeChunks → (∀ j, j < s.total → s'.valid.getLsbD j = s.valid.getLsbD j) →
    (∀ j r, j ∈ s.selected → r < s.rc → s'.readByte (cwAddr j r) = s.readByte (cwAddr j r)) →
    exec .decode s = .next t → exec .decode s' = .next t' →
    t'.errcode = t.errcode ∧
    (t.errcode = 0x00#8 → t'.rowCount = t.rowCount ∧
      ∀ p, p < s.len → t'.readByte (dataAddr p) = t.readByte (dataAddr p))

/-! ### Completion, over all commands -/

/-- 60_exceptions.md R153: a command that completes with a code other than NONE changes no state except ERRCODE, DONE
and ERROR, and the phase returns to IDLE. -/
def Obligations.FailedCommandChangesOnlyStatus : Prop :=
  ∀ (i : Instr) (s t : State), exec i s = .next t → t.errcode ≠ 0x00#8 →
    t = { s with errcode := t.errcode, done := true, error := true, phase := .idle }

/-- What no completion writes, what every completion writes, and the interrupt it raises: OPA, OPB, ORIG_LEN, DATA_CHUNKS,
CODE_CHUNKS, CTRL and CMD keep their values, and OVERRUN; DONE is set; ERROR is set by an error and else kept; the phase
is IDLE; irq is IRQ_EN (60_exceptions.md sections 2 and 4). -/
def Obligations.CompletionKeepsInputsAndRaisesDone : Prop :=
  ∀ (i : Instr) (s : State), ∃ t, exec i s = .next t ∧
    t.opa = s.opa ∧ t.opb = s.opb ∧ t.origLen = s.origLen ∧ t.dataChunks = s.dataChunks ∧
    t.codeChunks = s.codeChunks ∧ t.irqEn = s.irqEn ∧ t.cmd = s.cmd ∧ t.overrun = s.overrun ∧
    t.params = s.params ∧ t.resets = s.resets ∧
    t.done = true ∧ t.error = (s.error || decide (t.errcode ≠ 0x00#8)) ∧ t.phase = .idle ∧ t.irq = s.irqEn

/-- The codes each legal command can complete with (60_exceptions.md section 1, the table's column "raised by"). -/
def Obligations.ErrorCodesOfEachCommand : Prop :=
  ∀ (i : Instr) (s t : State), i.WellFormed = true → exec i s = .next t →
    t.errcode ∈ (match i with
      | .fadd => [0x00#8]
      | .fmul => [0x00#8]
      | .fmulx => [0x00#8]
      | .fdiv => [0x00#8, 0x01#8]
      | .finv => [0x00#8, 0x01#8]
      | .mmul _ _ _ => [0x00#8, 0x02#8, 0x06#8]
      | .minv _ _ => [0x00#8, 0x02#8, 0x03#8, 0x06#8]
      | .genmat _ => [0x00#8, 0x06#8]
      | .encode => [0x00#8, 0x06#8]
      | .decode => [0x00#8, 0x03#8, 0x04#8, 0x06#8])

/-- The frame of every command: RESULT is written by the field commands only, ROW_COUNT by ENCODE and DECODE only, VALID
by ENCODE only, MDIMb by a matrix command with D = b only, and a buffer byte only where it lies in the command's
destination (10_state.md section 2, the column "written by the engine"; 41_matrix.md section 2). -/
def Obligations.CommandsWriteOnlyTheirDestination : Prop :=
  ∀ (i : Instr) (s t : State), exec i s = .next t →
    (i ∉ [.fadd, .fmul, .fdiv, .finv, .fmulx] → t.result = s.result) ∧
    (i ≠ .encode → i ≠ .decode → t.rowCount = s.rowCount) ∧
    (i ≠ .encode → t.valid = s.valid) ∧
    (∀ b : BankId, (∀ d x y, i = .mmul d x y → d.toNat ≠ b.val) → (∀ d x, i = .minv d x → d.toNat ≠ b.val) →
      (∀ d, i = .genmat d → d.toNat ≠ b.val) → t.mdim b = s.mdim b) ∧
    ∀ a, ¬destination i s a → t.readByte a = s.readByte a

/-! ### The whole machine -/

/-- Every step keeps the invariant of the machine: the parameters' constraint, the canonical memory, ROW_COUNT at most
256, a produced ERRCODE, and in phase INIT the registers at reset. -/
def Obligations.InvariantKeptByEveryStep : Prop :=
  ∀ s t : State, s.Inv → step s = .next t → t.Inv

/-- The invariant holds at reset, and reset leaves phase INIT, every register at its reset value, irq = 0, the spec's
default parameters, and every buffer byte unwritten: a free value (70_reset_and_hazards.md section 1, 00_scope.md
section 4; that the model's parameters are the defaults is log 2, the free value's form log 4). -/
def Obligations.InvariantAtReset : Prop :=
  State.reset.Inv ∧ State.reset.phase = .init ∧ registersAtReset State.reset ∧ State.reset.irqEn = false ∧
  State.reset.overrun = false ∧ State.reset.irq = false ∧ State.reset.params.fieldPoly = 0x11D#9 ∧
  State.reset.params.fieldGen = 0x02#8 ∧ (∀ j, j < 32 → evalPoint State.reset.params j = BitVec.ofNat 8 j) ∧
  ∀ a, State.reset.readByte a = Config.powerOnByte 0 a

/-- No step stops: the block takes no trap and no behaviour is stuck, and no step changes the parameters
(60_exceptions.md section 3; 93_implementation_defined.md section 1). -/
def Obligations.EveryStepGoesOn : Prop :=
  ∀ s : State, ∃ t, step s = .next t ∧ t.params = s.params

/-- 10_state.md R21: the phase changes only by a reset or soft reset, by init-done, by an accepted CMD write and by
completion, and READY and BUSY expose it. -/
def Obligations.PhaseChangesOnlyByItsEvents : Prop :=
  (∀ s : State, s.statusWord.getLsbD 0 = decide (s.phase ≠ .init) ∧ s.statusWord.getLsbD 1 = decide (s.phase ≠ .idle)) ∧
  ∀ s t : State, step s = .next t → t.phase ≠ s.phase →
    (t.phase = .init ∧ ((∃ rest, s.sched = .hardReset :: rest) ∨
      (hostNext s ∧ ∃ w rest, s.host = .write 0x010#16 w :: rest ∧ w.getLsbD 0 = true))) ∨
    (s.phase = .init ∧ t.phase = .idle ∧ engineNext s) ∨
    (s.phase = .idle ∧ t.phase = .exec ∧ hostNext s ∧ ∃ w rest, s.host = .write 0x018#16 w :: rest ∧ t.cmd = w) ∨
    (s.phase = .exec ∧ t.phase = .idle ∧ engineNext s)

/-- Init-done moves INIT to IDLE and changes no other state; it does not set DONE (70_reset_and_hazards.md section 1). -/
def Obligations.InitDoneChangesOnlyThePhase : Prop :=
  ∀ s : State, s.phase = .init → engineNext s → step s = .next { popTurn s with phase := .idle }

/-- From every state some step within one more than the schedule is long reaches phase IDLE; and while the host issues
no soft reset, whatever else it reads, writes or polls, and the platform does not reset, a phase INIT is followed by its
init-done event and a phase EXEC by the completion of the command that was running, with the result it had from the start
(the model's form of 70_reset_and_hazards.md section 4: a finite schedule, log 14; the bound is the model's own). -/
def Obligations.EngineEventComes : Prop :=
  (∀ s : State, ∃ n, n ≤ s.sched.length + 1 ∧ ∃ t : State, Sys2Proof.core.run n s = .next t ∧ t.phase = .idle) ∧
  ∀ s : State, s.phase ≠ .idle → (∀ w, HostOp.write 0x010#16 w ∈ s.host → w.getLsbD 0 = false) →
    Turn.hardReset ∉ s.sched →
    ∃ n, n ≤ s.sched.length ∧ ∃ u t : State, Sys2Proof.core.run n s = .next u ∧ u.phase = s.phase ∧ engineNext u ∧
      step u = .next t ∧ t.phase = .idle ∧
      (s.phase = .init → t = { popTurn u with phase := .idle }) ∧
      (s.phase = .exec → t = complete (commandResult s.cmd s) (popTurn u))

/-- No host transaction but a soft reset changes what the running command will do: its inputs are the state at
acceptance (10_state.md section 4; 20_memory.md section 4). -/
def Obligations.RunningCommandIsUndisturbed : Prop :=
  ∀ s : State, s.phase = .exec → s.hostTurn.phase = .exec →
    s.hostTurn.cmd = s.cmd ∧ commandResult s.hostTurn.cmd s.hostTurn = commandResult s.cmd s

/-! ### The host port -/

/-- A CMD write in phase IDLE takes the word and moves to EXEC, changing nothing else; the command's inputs are the state
at acceptance; in another phase the write is dropped (60_exceptions.md section 2). That the dropped write answers ok is
the model's reading (log 18), and resp is the model's own field (log 17). -/
def Obligations.CmdWriteIsAcceptedWhenIdle : Prop :=
  ∀ (s : State) (w : Word),
    (s.phase = .idle → s.hostWrite 0x018#16 w = { s with cmd := w, phase := .exec, resp := some (.write false) } ∧
      commandResult w (s.hostWrite 0x018#16 w) = commandResult w s) ∧
    (s.phase ≠ .idle → s.hostWrite 0x018#16 w = { s with overrun := true, resp := some (.write false) })

/-- While phase is not IDLE an aligned write to any mapped offset but CTRL and STATUS is dropped and sets OVERRUN, and
has no other effect; CTRL and STATUS take effect in every phase; a bus error sets nothing (60_exceptions.md section 2).
That a dropped write answers ok is the model's reading (log 18), and resp is the model's own field (log 17). -/
def Obligations.BusyWritesAreDropped : Prop :=
  (∀ (s : State) (addr : Addr) (w : Word), s.phase ≠ .idle → addr.toNat % 4 = 0 → reservedOffset addr.toNat = false →
    addr ≠ 0x010#16 → addr ≠ 0x014#16 →
    s.hostWrite addr w = { s with overrun := true, resp := some (.write false) }) ∧
  (∀ (s : State) (w : Word), s.hostWrite 0x010#16 w = (s.writeCtrl w).setResp (some (.write false)) ∧
    s.hostWrite 0x014#16 w = (s.writeStatus w).setResp (some (.write false))) ∧
  ∀ (s : State) (addr : Addr) (w : Word), addr.toNat % 4 ≠ 0 ∨ reservedOffset addr.toNat = true →
    s.hostWrite addr w = { s with resp := some (.write true) }

/-- Exactly the misaligned and the reserved offsets get a bus error, in every phase; such a read returns 0, and nothing
of the block changes (20_memory.md sections 1 and 2). That a write at any other offset answers ok, a dropped or ignored
one too, is the model's reading (log 18), and resp is the model's own field (log 17). -/
def Obligations.BusErrorsChangeNothing : Prop :=
  ∀ (s : State) (addr : Addr) (w : Word),
    (addr.toNat % 4 ≠ 0 ∨ reservedOffset addr.toNat = true →
      s.hostRead addr = { s with resp := some (.read 0#32 true) } ∧
      s.hostWrite addr w = { s with resp := some (.write true) }) ∧
    (¬(addr.toNat % 4 ≠ 0 ∨ reservedOffset addr.toNat = true) →
      (∃ v, (s.hostRead addr).resp = some (.read v false)) ∧ (s.hostWrite addr w).resp = some (.write false))

/-- 20_memory.md R54: in phase IDLE the word at an aligned buffer offset reads its four bytes little-endian, and a write
sets exactly those four bytes, byte t from bits 8t+7..8t. -/
def Obligations.BufferWordsAreLittleEndian : Prop :=
  ∀ (s : State) (addr : Addr) (v : Word), s.phase = .idle → addr.toNat % 4 = 0 → Memory.inBuffer addr.toNat = true →
    s.hostRead addr = { s with resp := some (.read (s.readByte (addr.toNat + 3) ++ s.readByte (addr.toNat + 2) ++
      s.readByte (addr.toNat + 1) ++ s.readByte addr.toNat) false) } ∧
    (∃ m : Memory, s.hostWrite addr v = { s with mem := m, resp := some (.write false) }) ∧
    (∀ t, t < 4 → (s.hostWrite addr v).readByte (addr.toNat + t) = v.extractLsb' (8 * t) 8) ∧
    ∀ a, (∀ t, t < 4 → a ≠ addr.toNat + t) → (s.hostWrite addr v).readByte a = s.readByte a

/-- The windows of 20_memory.md section 2: every aligned offset of a window is a buffer word, and byte i of a window is
the byte the map names. -/
def Obligations.WindowsHoldTheBuffers : Prop :=
  (∀ b i, b < 4 → i < 0x400 → bankAddr b (i / 32) (i % 32) = 0x1000 + 0x400 * b + i) ∧
  (∀ i, i < 0x2000 → dataAddr i = 0x4000 + i ∧ cwAddr (i / 256) (i % 256) = 0x8000 + i) ∧
  (∀ b r c, b < 4 → r < 32 → c < 32 → c % 4 = 0 →
    target (BitVec.ofNat 16 (bankAddr b r c)) = some (.buffer (bankAddr b r c))) ∧
  (∀ i, i < 8192 → i % 4 = 0 → target (BitVec.ofNat 16 (dataAddr i)) = some (.buffer (dataAddr i))) ∧
  ∀ j r, j < 32 → r < 256 → r % 4 = 0 → target (BitVec.ofNat 16 (cwAddr j r)) = some (.buffer (cwAddr j r))

/-- The bits a read of STATUS returns in every phase; a write clears DONE, ERROR and OVERRUN where it has a 1 and changes
nothing else (10_state.md section 2, STATUS). The interrupt line is IRQ_EN and DONE in every state, so that it falls when
a write clears DONE, and a step raises it only as a completion or as a CTRL write that sets IRQ_EN over a pending DONE
(10_state.md section 4, 60_exceptions.md section 4). -/
def Obligations.StatusBitsAndWriteOneToClear : Prop :=
  (∀ (s : State) (w : Word),
    (∃ v : Word, s.hostRead 0x014#16 = { s with resp := some (.read v false) } ∧
      v.getLsbD 0 = decide (s.phase ≠ .init) ∧ v.getLsbD 1 = decide (s.phase ≠ .idle) ∧ v.getLsbD 2 = s.done ∧
      v.getLsbD 3 = s.error ∧ v.getLsbD 4 = s.overrun ∧ v.extractLsb' 5 3 = 0#3 ∧ v.extractLsb' 8 8 = s.errcode ∧
      v.extractLsb' 16 16 = 0#16) ∧
    s.hostWrite 0x014#16 w = { s with
      done := s.done && !w.getLsbD 2, error := s.error && !w.getLsbD 3, overrun := s.overrun && !w.getLsbD 4,
      resp := some (.write false) } ∧
    s.irq = (s.irqEn && s.done) ∧
    (w.getLsbD 2 = true → (s.hostWrite 0x014#16 w).irq = false) ∧
    (w.getLsbD 2 = false → (s.hostWrite 0x014#16 w).irq = s.irq)) ∧
  ∀ s t : State, step s = .next t → s.irq = false → t.irq = true →
    (s.phase = .exec ∧ t.phase = .idle ∧ engineNext s) ∨
    (s.done = true ∧ hostNext s ∧ ∃ w rest, s.host = .write 0x010#16 w :: rest ∧ w.getLsbD 0 = false ∧
      w.getLsbD 1 = true)

/-- A CTRL write with bit 0 = 0 sets IRQ_EN to bit 1; with bit 0 = 1 it soft-resets and leaves IRQ_EN = 0; in every
phase, never setting OVERRUN; a read returns IRQ_EN in bit 1 and 0 in bit 0 (10_state.md section 2, CTRL). The interrupt
line falls with IRQ_EN = 0 and with the soft reset, and follows DONE with IRQ_EN = 1 (60_exceptions.md section 4). -/
def Obligations.CtrlWritesInEveryPhase : Prop :=
  ∀ (s : State) (w : Word),
    (w.getLsbD 0 = false → s.hostWrite 0x010#16 w = { s with irqEn := w.getLsbD 1, resp := some (.write false) } ∧
      (s.hostWrite 0x010#16 w).irq = (w.getLsbD 1 && s.done)) ∧
    (w.getLsbD 0 = true → (s.hostWrite 0x010#16 w).irqEn = false ∧ (s.hostWrite 0x010#16 w).phase = .init ∧
      (s.hostWrite 0x010#16 w).overrun = false ∧ (s.hostWrite 0x010#16 w).irq = false) ∧
    s.hostRead 0x010#16 = { s with resp := some (.read (if s.irqEn then 0x2#32 else 0x0#32) false) }

/-- In phase IDLE a write of an RW register reads back masked to its fields and changes no other register, no buffer byte
and not the phase, and a write of a read-only register changes nothing (10_state.md section 2 and 5). That an ignored
write answers ok is the model's reading (log 18). -/
def Obligations.RegisterWritesReadBackMasked : Prop :=
  ∀ (s : State) (w : Word), s.phase = .idle →
    (∀ p ∈ [(Reg.opa, 0x000000FF#32), (.opb, 0x000000FF#32), (.origLen, 0x0000FFFF#32), (.dataChunks, 0x000000FF#32),
        (.codeChunks, 0x000000FF#32), (.valid, 0xFFFFFFFF#32), (.mdim 0, 0x003F003F#32), (.mdim 1, 0x003F003F#32),
        (.mdim 2, 0x003F003F#32), (.mdim 3, 0x003F003F#32)],
      ((s.hostWrite (regOffset p.1) w).hostRead (regOffset p.1)).resp = some (.read (w &&& p.2) false) ∧
      (∀ r, r ≠ p.1 → (s.hostWrite (regOffset p.1) w).regValue r = s.regValue r) ∧
      (∀ a, (s.hostWrite (regOffset p.1) w).readByte a = s.readByte a) ∧
      (s.hostWrite (regOffset p.1) w).phase = .idle) ∧
    ∀ r ∈ [Reg.id, .fieldCfg, .sizeCfg, .result, .rowCount],
      s.hostWrite (regOffset r) w = { s with resp := some (.write false) }

/-- ID reads 0x47460100 and SIZE_CFG reads 0x01002020 always; FIELD_CFG reads FIELD_GEN and FIELD_POLY; a write to one of
them is ignored in phase IDLE and else dropped with OVERRUN (10_state.md sections 2 and 5). That an ignored or dropped
write answers ok is the model's reading (log 18), and resp is the model's own field (log 17). -/
def Obligations.ConstantRegisters : Prop :=
  ∀ (s : State) (w : Word),
    (s.hostRead 0x000#16).resp = some (.read 0x47460100#32 false) ∧
    (s.hostRead 0x008#16).resp = some (.read 0x01002020#32 false) ∧
    (∃ v : Word, (s.hostRead 0x004#16).resp = some (.read v false) ∧
      v.toNat = s.params.fieldGen.toNat * 65536 + s.params.fieldPoly.toNat) ∧
    ∀ addr ∈ [0x000#16, 0x004#16, 0x008#16],
      s.hostWrite addr w = { s with overrun := s.overrun || decide (s.phase ≠ .idle), resp := some (.write false) }

/-- A read has no side effect on the block: it changes the response, and an unspecified read the number of draws; reading
in phase IDLE, and reading a register the engine never writes in any phase, returns the current value, which is the
register's field of the state in its place and 0 elsewhere (10_state.md section 2); the other reads return a free value
while the phase is not IDLE (20_memory.md section 3; log 5). -/
def Obligations.ReadsHaveNoSideEffect : Prop :=
  ∀ (s : State) (addr : Addr),
    (∃ r n, s.hostRead addr = { s with resp := some r, draws := n }) ∧
    (∀ r, s.phase = .idle ∨ r ∈ [Reg.id, .fieldCfg, .sizeCfg, .ctrl, .status, .cmd, .opa, .opb, .origLen, .dataChunks,
        .codeChunks] →
      s.hostRead (regOffset r) = { s with resp := some (.read (s.regValue r) false) }) ∧
    (∀ p ∈ [(0x018#16, s.cmd), (0x020#16, s.opa.setWidth 32), (0x024#16, s.opb.setWidth 32),
        (0x030#16, s.origLen.setWidth 32), (0x034#16, s.dataChunks.setWidth 32), (0x038#16, s.codeChunks.setWidth 32)],
      s.hostRead p.1 = { s with resp := some (.read p.2 false) }) ∧
    (s.phase = .idle →
      (∀ p ∈ [(0x028#16, s.result.setWidth 32), (0x02C#16, s.rowCount.setWidth 32), (0x03C#16, s.valid)],
        s.hostRead p.1 = { s with resp := some (.read p.2 false) }) ∧
      ∀ b : BankId, ∃ v : Word,
        s.hostRead (BitVec.ofNat 16 (0x040 + 4 * b.val)) = { s with resp := some (.read v false) } ∧
        v.toNat = (s.mdim b).cols.toNat * 65536 + (s.mdim b).rows.toNat) ∧
    (s.phase ≠ .idle → addr.toNat % 4 = 0 →
      Memory.inBuffer addr.toNat = true ∨ addr ∈ [0x028#16, 0x02C#16, 0x03C#16, 0x040#16, 0x044#16, 0x048#16, 0x04C#16] →
      s.hostRead addr =
        { s with resp := some (.read (Config.busyRead s.draws) false), draws := s.draws + 1 })

/-! ### Reset -/

/-- 70_reset_and_hazards.md R182: a soft reset, in any phase, returns every register to its reset value, enters INIT, and
outside a running command keeps every buffer byte. -/
def Obligations.SoftResetKeepsBuffers : Prop :=
  ∀ (s : State) (w : Word), w.getLsbD 0 = true →
    let t := s.hostWrite 0x010#16 w
    registersAtReset t ∧ t.irqEn = false ∧ t.overrun = false ∧ t.phase = .init ∧ t.params = s.params ∧
    (s.phase ≠ .exec → ∀ a, t.readByte a = s.readByte a)

/-- 70_reset_and_hazards.md R183: a soft reset in phase EXEC aborts the command. No DONE, ERRCODE or irq comes from it.
If the command would have completed with NONE, its destination bytes hold fresh free values, one draw a byte, and every
other byte keeps its value; if it would have failed, or its word is illegal, no byte changes. -/
def Obligations.AbortMakesOnlyTheDestinationUnspecified : Prop :=
  ∀ (s : State) (w : Word), s.phase = .exec → w.getLsbD 0 = true →
    let t := s.hostWrite 0x010#16 w
    t.done = false ∧ t.errcode = 0x00#8 ∧ t.irq = false ∧
    ((∃ why, decode s.cmd = .illegal why) → ∀ a, t.readByte a = s.readByte a) ∧
    ∀ (i : Instr) (u : State), decode s.cmd = .legal i → exec i s = .next u →
      (∀ a, ¬destination i s a → t.readByte a = s.readByte a) ∧
      (u.errcode ≠ 0x00#8 → ∀ a, t.readByte a = s.readByte a) ∧
      (u.errcode = 0x00#8 → ∃ draw : Nat → Nat,
        (∀ a, destination i s a → s.draws ≤ draw a ∧ draw a < t.draws ∧
          t.readByte a = Config.abortByte (draw a)) ∧
        ∀ a b, destination i s a → destination i s b → draw a = draw b → a = b)

/-- A hardware reset returns every register to its reset value and enters INIT, and every buffer byte then has a free
value of that reset (70_reset_and_hazards.md section 1; that the free value is drawn by reset number is log 4). -/
def Obligations.HardwareResetForgetsBuffers : Prop :=
  ∀ (s : State) (rest : List Turn), s.sched = .hardReset :: rest →
    ∃ t, step s = .next t ∧ registersAtReset t ∧ t.irqEn = false ∧ t.overrun = false ∧ t.phase = .init ∧
      t.params = s.params ∧ t.irq = false ∧ ∀ a, t.readByte a = Config.powerOnByte (s.resets + 1) a
end

