-- ==== Sys2Proof/Laws/State.lean ====
section
/-! SUPPORT. What each named update of State does to each field: one lemma per field per update, true by rfl. -/

namespace Sys2Proof.Machine

variable (s : State)

@[simp] theorem State.setPhase_params (p : Phase) : (s.setPhase p).params = s.params := rfl
@[simp] theorem State.setPhase_phase (p : Phase) : (s.setPhase p).phase = p := rfl
@[simp] theorem State.setPhase_irqEn (p : Phase) : (s.setPhase p).irqEn = s.irqEn := rfl
@[simp] theorem State.setPhase_done (p : Phase) : (s.setPhase p).done = s.done := rfl
@[simp] theorem State.setPhase_error (p : Phase) : (s.setPhase p).error = s.error := rfl
@[simp] theorem State.setPhase_overrun (p : Phase) : (s.setPhase p).overrun = s.overrun := rfl
@[simp] theorem State.setPhase_errcode (p : Phase) : (s.setPhase p).errcode = s.errcode := rfl
@[simp] theorem State.setPhase_cmd (p : Phase) : (s.setPhase p).cmd = s.cmd := rfl
@[simp] theorem State.setPhase_opa (p : Phase) : (s.setPhase p).opa = s.opa := rfl
@[simp] theorem State.setPhase_opb (p : Phase) : (s.setPhase p).opb = s.opb := rfl
@[simp] theorem State.setPhase_result (p : Phase) : (s.setPhase p).result = s.result := rfl
@[simp] theorem State.setPhase_rowCount (p : Phase) : (s.setPhase p).rowCount = s.rowCount := rfl
@[simp] theorem State.setPhase_origLen (p : Phase) : (s.setPhase p).origLen = s.origLen := rfl
@[simp] theorem State.setPhase_dataChunks (p : Phase) : (s.setPhase p).dataChunks = s.dataChunks := rfl
@[simp] theorem State.setPhase_codeChunks (p : Phase) : (s.setPhase p).codeChunks = s.codeChunks := rfl
@[simp] theorem State.setPhase_valid (p : Phase) : (s.setPhase p).valid = s.valid := rfl
@[simp] theorem State.setPhase_mdim0 (p : Phase) : (s.setPhase p).mdim0 = s.mdim0 := rfl
@[simp] theorem State.setPhase_mdim1 (p : Phase) : (s.setPhase p).mdim1 = s.mdim1 := rfl
@[simp] theorem State.setPhase_mdim2 (p : Phase) : (s.setPhase p).mdim2 = s.mdim2 := rfl
@[simp] theorem State.setPhase_mdim3 (p : Phase) : (s.setPhase p).mdim3 = s.mdim3 := rfl
@[simp] theorem State.setPhase_mem (p : Phase) : (s.setPhase p).mem = s.mem := rfl
@[simp] theorem State.setPhase_host (p : Phase) : (s.setPhase p).host = s.host := rfl
@[simp] theorem State.setPhase_sched (p : Phase) : (s.setPhase p).sched = s.sched := rfl
@[simp] theorem State.setPhase_resp (p : Phase) : (s.setPhase p).resp = s.resp := rfl
@[simp] theorem State.setPhase_draws (p : Phase) : (s.setPhase p).draws = s.draws := rfl
@[simp] theorem State.setPhase_resets (p : Phase) : (s.setPhase p).resets = s.resets := rfl
@[simp] theorem State.setPhase_mdim (p : Phase) (bank : BankId) : (s.setPhase p).mdim bank = s.mdim bank := rfl

@[simp] theorem State.setIrqEn_params (b : Bool) : (s.setIrqEn b).params = s.params := rfl
@[simp] theorem State.setIrqEn_phase (b : Bool) : (s.setIrqEn b).phase = s.phase := rfl
@[simp] theorem State.setIrqEn_irqEn (b : Bool) : (s.setIrqEn b).irqEn = b := rfl
@[simp] theorem State.setIrqEn_done (b : Bool) : (s.setIrqEn b).done = s.done := rfl
@[simp] theorem State.setIrqEn_error (b : Bool) : (s.setIrqEn b).error = s.error := rfl
@[simp] theorem State.setIrqEn_overrun (b : Bool) : (s.setIrqEn b).overrun = s.overrun := rfl
@[simp] theorem State.setIrqEn_errcode (b : Bool) : (s.setIrqEn b).errcode = s.errcode := rfl
@[simp] theorem State.setIrqEn_cmd (b : Bool) : (s.setIrqEn b).cmd = s.cmd := rfl
@[simp] theorem State.setIrqEn_opa (b : Bool) : (s.setIrqEn b).opa = s.opa := rfl
@[simp] theorem State.setIrqEn_opb (b : Bool) : (s.setIrqEn b).opb = s.opb := rfl
@[simp] theorem State.setIrqEn_result (b : Bool) : (s.setIrqEn b).result = s.result := rfl
@[simp] theorem State.setIrqEn_rowCount (b : Bool) : (s.setIrqEn b).rowCount = s.rowCount := rfl
@[simp] theorem State.setIrqEn_origLen (b : Bool) : (s.setIrqEn b).origLen = s.origLen := rfl
@[simp] theorem State.setIrqEn_dataChunks (b : Bool) : (s.setIrqEn b).dataChunks = s.dataChunks := rfl
@[simp] theorem State.setIrqEn_codeChunks (b : Bool) : (s.setIrqEn b).codeChunks = s.codeChunks := rfl
@[simp] theorem State.setIrqEn_valid (b : Bool) : (s.setIrqEn b).valid = s.valid := rfl
@[simp] theorem State.setIrqEn_mdim0 (b : Bool) : (s.setIrqEn b).mdim0 = s.mdim0 := rfl
@[simp] theorem State.setIrqEn_mdim1 (b : Bool) : (s.setIrqEn b).mdim1 = s.mdim1 := rfl
@[simp] theorem State.setIrqEn_mdim2 (b : Bool) : (s.setIrqEn b).mdim2 = s.mdim2 := rfl
@[simp] theorem State.setIrqEn_mdim3 (b : Bool) : (s.setIrqEn b).mdim3 = s.mdim3 := rfl
@[simp] theorem State.setIrqEn_mem (b : Bool) : (s.setIrqEn b).mem = s.mem := rfl
@[simp] theorem State.setIrqEn_host (b : Bool) : (s.setIrqEn b).host = s.host := rfl
@[simp] theorem State.setIrqEn_sched (b : Bool) : (s.setIrqEn b).sched = s.sched := rfl
@[simp] theorem State.setIrqEn_resp (b : Bool) : (s.setIrqEn b).resp = s.resp := rfl
@[simp] theorem State.setIrqEn_draws (b : Bool) : (s.setIrqEn b).draws = s.draws := rfl
@[simp] theorem State.setIrqEn_resets (b : Bool) : (s.setIrqEn b).resets = s.resets := rfl
@[simp] theorem State.setIrqEn_mdim (b : Bool) (bank : BankId) : (s.setIrqEn b).mdim bank = s.mdim bank := rfl

@[simp] theorem State.setDone_params (b : Bool) : (s.setDone b).params = s.params := rfl
@[simp] theorem State.setDone_phase (b : Bool) : (s.setDone b).phase = s.phase := rfl
@[simp] theorem State.setDone_irqEn (b : Bool) : (s.setDone b).irqEn = s.irqEn := rfl
@[simp] theorem State.setDone_done (b : Bool) : (s.setDone b).done = b := rfl
@[simp] theorem State.setDone_error (b : Bool) : (s.setDone b).error = s.error := rfl
@[simp] theorem State.setDone_overrun (b : Bool) : (s.setDone b).overrun = s.overrun := rfl
@[simp] theorem State.setDone_errcode (b : Bool) : (s.setDone b).errcode = s.errcode := rfl
@[simp] theorem State.setDone_cmd (b : Bool) : (s.setDone b).cmd = s.cmd := rfl
@[simp] theorem State.setDone_opa (b : Bool) : (s.setDone b).opa = s.opa := rfl
@[simp] theorem State.setDone_opb (b : Bool) : (s.setDone b).opb = s.opb := rfl
@[simp] theorem State.setDone_result (b : Bool) : (s.setDone b).result = s.result := rfl
@[simp] theorem State.setDone_rowCount (b : Bool) : (s.setDone b).rowCount = s.rowCount := rfl
@[simp] theorem State.setDone_origLen (b : Bool) : (s.setDone b).origLen = s.origLen := rfl
@[simp] theorem State.setDone_dataChunks (b : Bool) : (s.setDone b).dataChunks = s.dataChunks := rfl
@[simp] theorem State.setDone_codeChunks (b : Bool) : (s.setDone b).codeChunks = s.codeChunks := rfl
@[simp] theorem State.setDone_valid (b : Bool) : (s.setDone b).valid = s.valid := rfl
@[simp] theorem State.setDone_mdim0 (b : Bool) : (s.setDone b).mdim0 = s.mdim0 := rfl
@[simp] theorem State.setDone_mdim1 (b : Bool) : (s.setDone b).mdim1 = s.mdim1 := rfl
@[simp] theorem State.setDone_mdim2 (b : Bool) : (s.setDone b).mdim2 = s.mdim2 := rfl
@[simp] theorem State.setDone_mdim3 (b : Bool) : (s.setDone b).mdim3 = s.mdim3 := rfl
@[simp] theorem State.setDone_mem (b : Bool) : (s.setDone b).mem = s.mem := rfl
@[simp] theorem State.setDone_host (b : Bool) : (s.setDone b).host = s.host := rfl
@[simp] theorem State.setDone_sched (b : Bool) : (s.setDone b).sched = s.sched := rfl
@[simp] theorem State.setDone_resp (b : Bool) : (s.setDone b).resp = s.resp := rfl
@[simp] theorem State.setDone_draws (b : Bool) : (s.setDone b).draws = s.draws := rfl
@[simp] theorem State.setDone_resets (b : Bool) : (s.setDone b).resets = s.resets := rfl
@[simp] theorem State.setDone_mdim (b : Bool) (bank : BankId) : (s.setDone b).mdim bank = s.mdim bank := rfl

@[simp] theorem State.setError_params (b : Bool) : (s.setError b).params = s.params := rfl
@[simp] theorem State.setError_phase (b : Bool) : (s.setError b).phase = s.phase := rfl
@[simp] theorem State.setError_irqEn (b : Bool) : (s.setError b).irqEn = s.irqEn := rfl
@[simp] theorem State.setError_done (b : Bool) : (s.setError b).done = s.done := rfl
@[simp] theorem State.setError_error (b : Bool) : (s.setError b).error = b := rfl
@[simp] theorem State.setError_overrun (b : Bool) : (s.setError b).overrun = s.overrun := rfl
@[simp] theorem State.setError_errcode (b : Bool) : (s.setError b).errcode = s.errcode := rfl
@[simp] theorem State.setError_cmd (b : Bool) : (s.setError b).cmd = s.cmd := rfl
@[simp] theorem State.setError_opa (b : Bool) : (s.setError b).opa = s.opa := rfl
@[simp] theorem State.setError_opb (b : Bool) : (s.setError b).opb = s.opb := rfl
@[simp] theorem State.setError_result (b : Bool) : (s.setError b).result = s.result := rfl
@[simp] theorem State.setError_rowCount (b : Bool) : (s.setError b).rowCount = s.rowCount := rfl
@[simp] theorem State.setError_origLen (b : Bool) : (s.setError b).origLen = s.origLen := rfl
@[simp] theorem State.setError_dataChunks (b : Bool) : (s.setError b).dataChunks = s.dataChunks := rfl
@[simp] theorem State.setError_codeChunks (b : Bool) : (s.setError b).codeChunks = s.codeChunks := rfl
@[simp] theorem State.setError_valid (b : Bool) : (s.setError b).valid = s.valid := rfl
@[simp] theorem State.setError_mdim0 (b : Bool) : (s.setError b).mdim0 = s.mdim0 := rfl
@[simp] theorem State.setError_mdim1 (b : Bool) : (s.setError b).mdim1 = s.mdim1 := rfl
@[simp] theorem State.setError_mdim2 (b : Bool) : (s.setError b).mdim2 = s.mdim2 := rfl
@[simp] theorem State.setError_mdim3 (b : Bool) : (s.setError b).mdim3 = s.mdim3 := rfl
@[simp] theorem State.setError_mem (b : Bool) : (s.setError b).mem = s.mem := rfl
@[simp] theorem State.setError_host (b : Bool) : (s.setError b).host = s.host := rfl
@[simp] theorem State.setError_sched (b : Bool) : (s.setError b).sched = s.sched := rfl
@[simp] theorem State.setError_resp (b : Bool) : (s.setError b).resp = s.resp := rfl
@[simp] theorem State.setError_draws (b : Bool) : (s.setError b).draws = s.draws := rfl
@[simp] theorem State.setError_resets (b : Bool) : (s.setError b).resets = s.resets := rfl
@[simp] theorem State.setError_mdim (b : Bool) (bank : BankId) : (s.setError b).mdim bank = s.mdim bank := rfl

@[simp] theorem State.setOverrun_params (b : Bool) : (s.setOverrun b).params = s.params := rfl
@[simp] theorem State.setOverrun_phase (b : Bool) : (s.setOverrun b).phase = s.phase := rfl
@[simp] theorem State.setOverrun_irqEn (b : Bool) : (s.setOverrun b).irqEn = s.irqEn := rfl
@[simp] theorem State.setOverrun_done (b : Bool) : (s.setOverrun b).done = s.done := rfl
@[simp] theorem State.setOverrun_error (b : Bool) : (s.setOverrun b).error = s.error := rfl
@[simp] theorem State.setOverrun_overrun (b : Bool) : (s.setOverrun b).overrun = b := rfl
@[simp] theorem State.setOverrun_errcode (b : Bool) : (s.setOverrun b).errcode = s.errcode := rfl
@[simp] theorem State.setOverrun_cmd (b : Bool) : (s.setOverrun b).cmd = s.cmd := rfl
@[simp] theorem State.setOverrun_opa (b : Bool) : (s.setOverrun b).opa = s.opa := rfl
@[simp] theorem State.setOverrun_opb (b : Bool) : (s.setOverrun b).opb = s.opb := rfl
@[simp] theorem State.setOverrun_result (b : Bool) : (s.setOverrun b).result = s.result := rfl
@[simp] theorem State.setOverrun_rowCount (b : Bool) : (s.setOverrun b).rowCount = s.rowCount := rfl
@[simp] theorem State.setOverrun_origLen (b : Bool) : (s.setOverrun b).origLen = s.origLen := rfl
@[simp] theorem State.setOverrun_dataChunks (b : Bool) : (s.setOverrun b).dataChunks = s.dataChunks := rfl
@[simp] theorem State.setOverrun_codeChunks (b : Bool) : (s.setOverrun b).codeChunks = s.codeChunks := rfl
@[simp] theorem State.setOverrun_valid (b : Bool) : (s.setOverrun b).valid = s.valid := rfl
@[simp] theorem State.setOverrun_mdim0 (b : Bool) : (s.setOverrun b).mdim0 = s.mdim0 := rfl
@[simp] theorem State.setOverrun_mdim1 (b : Bool) : (s.setOverrun b).mdim1 = s.mdim1 := rfl
@[simp] theorem State.setOverrun_mdim2 (b : Bool) : (s.setOverrun b).mdim2 = s.mdim2 := rfl
@[simp] theorem State.setOverrun_mdim3 (b : Bool) : (s.setOverrun b).mdim3 = s.mdim3 := rfl
@[simp] theorem State.setOverrun_mem (b : Bool) : (s.setOverrun b).mem = s.mem := rfl
@[simp] theorem State.setOverrun_host (b : Bool) : (s.setOverrun b).host = s.host := rfl
@[simp] theorem State.setOverrun_sched (b : Bool) : (s.setOverrun b).sched = s.sched := rfl
@[simp] theorem State.setOverrun_resp (b : Bool) : (s.setOverrun b).resp = s.resp := rfl
@[simp] theorem State.setOverrun_draws (b : Bool) : (s.setOverrun b).draws = s.draws := rfl
@[simp] theorem State.setOverrun_resets (b : Bool) : (s.setOverrun b).resets = s.resets := rfl
@[simp] theorem State.setOverrun_mdim (b : Bool) (bank : BankId) : (s.setOverrun b).mdim bank = s.mdim bank := rfl

@[simp] theorem State.setErrcode_params (c : Byte) : (s.setErrcode c).params = s.params := rfl
@[simp] theorem State.setErrcode_phase (c : Byte) : (s.setErrcode c).phase = s.phase := rfl
@[simp] theorem State.setErrcode_irqEn (c : Byte) : (s.setErrcode c).irqEn = s.irqEn := rfl
@[simp] theorem State.setErrcode_done (c : Byte) : (s.setErrcode c).done = s.done := rfl
@[simp] theorem State.setErrcode_error (c : Byte) : (s.setErrcode c).error = s.error := rfl
@[simp] theorem State.setErrcode_overrun (c : Byte) : (s.setErrcode c).overrun = s.overrun := rfl
@[simp] theorem State.setErrcode_errcode (c : Byte) : (s.setErrcode c).errcode = c := rfl
@[simp] theorem State.setErrcode_cmd (c : Byte) : (s.setErrcode c).cmd = s.cmd := rfl
@[simp] theorem State.setErrcode_opa (c : Byte) : (s.setErrcode c).opa = s.opa := rfl
@[simp] theorem State.setErrcode_opb (c : Byte) : (s.setErrcode c).opb = s.opb := rfl
@[simp] theorem State.setErrcode_result (c : Byte) : (s.setErrcode c).result = s.result := rfl
@[simp] theorem State.setErrcode_rowCount (c : Byte) : (s.setErrcode c).rowCount = s.rowCount := rfl
@[simp] theorem State.setErrcode_origLen (c : Byte) : (s.setErrcode c).origLen = s.origLen := rfl
@[simp] theorem State.setErrcode_dataChunks (c : Byte) : (s.setErrcode c).dataChunks = s.dataChunks := rfl
@[simp] theorem State.setErrcode_codeChunks (c : Byte) : (s.setErrcode c).codeChunks = s.codeChunks := rfl
@[simp] theorem State.setErrcode_valid (c : Byte) : (s.setErrcode c).valid = s.valid := rfl
@[simp] theorem State.setErrcode_mdim0 (c : Byte) : (s.setErrcode c).mdim0 = s.mdim0 := rfl
@[simp] theorem State.setErrcode_mdim1 (c : Byte) : (s.setErrcode c).mdim1 = s.mdim1 := rfl
@[simp] theorem State.setErrcode_mdim2 (c : Byte) : (s.setErrcode c).mdim2 = s.mdim2 := rfl
@[simp] theorem State.setErrcode_mdim3 (c : Byte) : (s.setErrcode c).mdim3 = s.mdim3 := rfl
@[simp] theorem State.setErrcode_mem (c : Byte) : (s.setErrcode c).mem = s.mem := rfl
@[simp] theorem State.setErrcode_host (c : Byte) : (s.setErrcode c).host = s.host := rfl
@[simp] theorem State.setErrcode_sched (c : Byte) : (s.setErrcode c).sched = s.sched := rfl
@[simp] theorem State.setErrcode_resp (c : Byte) : (s.setErrcode c).resp = s.resp := rfl
@[simp] theorem State.setErrcode_draws (c : Byte) : (s.setErrcode c).draws = s.draws := rfl
@[simp] theorem State.setErrcode_resets (c : Byte) : (s.setErrcode c).resets = s.resets := rfl
@[simp] theorem State.setErrcode_mdim (c : Byte) (bank : BankId) : (s.setErrcode c).mdim bank = s.mdim bank := rfl

@[simp] theorem State.setCmd_params (w : Word) : (s.setCmd w).params = s.params := rfl
@[simp] theorem State.setCmd_phase (w : Word) : (s.setCmd w).phase = s.phase := rfl
@[simp] theorem State.setCmd_irqEn (w : Word) : (s.setCmd w).irqEn = s.irqEn := rfl
@[simp] theorem State.setCmd_done (w : Word) : (s.setCmd w).done = s.done := rfl
@[simp] theorem State.setCmd_error (w : Word) : (s.setCmd w).error = s.error := rfl
@[simp] theorem State.setCmd_overrun (w : Word) : (s.setCmd w).overrun = s.overrun := rfl
@[simp] theorem State.setCmd_errcode (w : Word) : (s.setCmd w).errcode = s.errcode := rfl
@[simp] theorem State.setCmd_cmd (w : Word) : (s.setCmd w).cmd = w := rfl
@[simp] theorem State.setCmd_opa (w : Word) : (s.setCmd w).opa = s.opa := rfl
@[simp] theorem State.setCmd_opb (w : Word) : (s.setCmd w).opb = s.opb := rfl
@[simp] theorem State.setCmd_result (w : Word) : (s.setCmd w).result = s.result := rfl
@[simp] theorem State.setCmd_rowCount (w : Word) : (s.setCmd w).rowCount = s.rowCount := rfl
@[simp] theorem State.setCmd_origLen (w : Word) : (s.setCmd w).origLen = s.origLen := rfl
@[simp] theorem State.setCmd_dataChunks (w : Word) : (s.setCmd w).dataChunks = s.dataChunks := rfl
@[simp] theorem State.setCmd_codeChunks (w : Word) : (s.setCmd w).codeChunks = s.codeChunks := rfl
@[simp] theorem State.setCmd_valid (w : Word) : (s.setCmd w).valid = s.valid := rfl
@[simp] theorem State.setCmd_mdim0 (w : Word) : (s.setCmd w).mdim0 = s.mdim0 := rfl
@[simp] theorem State.setCmd_mdim1 (w : Word) : (s.setCmd w).mdim1 = s.mdim1 := rfl
@[simp] theorem State.setCmd_mdim2 (w : Word) : (s.setCmd w).mdim2 = s.mdim2 := rfl
@[simp] theorem State.setCmd_mdim3 (w : Word) : (s.setCmd w).mdim3 = s.mdim3 := rfl
@[simp] theorem State.setCmd_mem (w : Word) : (s.setCmd w).mem = s.mem := rfl
@[simp] theorem State.setCmd_host (w : Word) : (s.setCmd w).host = s.host := rfl
@[simp] theorem State.setCmd_sched (w : Word) : (s.setCmd w).sched = s.sched := rfl
@[simp] theorem State.setCmd_resp (w : Word) : (s.setCmd w).resp = s.resp := rfl
@[simp] theorem State.setCmd_draws (w : Word) : (s.setCmd w).draws = s.draws := rfl
@[simp] theorem State.setCmd_resets (w : Word) : (s.setCmd w).resets = s.resets := rfl
@[simp] theorem State.setCmd_mdim (w : Word) (bank : BankId) : (s.setCmd w).mdim bank = s.mdim bank := rfl

@[simp] theorem State.setOpa_params (v : Byte) : (s.setOpa v).params = s.params := rfl
@[simp] theorem State.setOpa_phase (v : Byte) : (s.setOpa v).phase = s.phase := rfl
@[simp] theorem State.setOpa_irqEn (v : Byte) : (s.setOpa v).irqEn = s.irqEn := rfl
@[simp] theorem State.setOpa_done (v : Byte) : (s.setOpa v).done = s.done := rfl
@[simp] theorem State.setOpa_error (v : Byte) : (s.setOpa v).error = s.error := rfl
@[simp] theorem State.setOpa_overrun (v : Byte) : (s.setOpa v).overrun = s.overrun := rfl
@[simp] theorem State.setOpa_errcode (v : Byte) : (s.setOpa v).errcode = s.errcode := rfl
@[simp] theorem State.setOpa_cmd (v : Byte) : (s.setOpa v).cmd = s.cmd := rfl
@[simp] theorem State.setOpa_opa (v : Byte) : (s.setOpa v).opa = v := rfl
@[simp] theorem State.setOpa_opb (v : Byte) : (s.setOpa v).opb = s.opb := rfl
@[simp] theorem State.setOpa_result (v : Byte) : (s.setOpa v).result = s.result := rfl
@[simp] theorem State.setOpa_rowCount (v : Byte) : (s.setOpa v).rowCount = s.rowCount := rfl
@[simp] theorem State.setOpa_origLen (v : Byte) : (s.setOpa v).origLen = s.origLen := rfl
@[simp] theorem State.setOpa_dataChunks (v : Byte) : (s.setOpa v).dataChunks = s.dataChunks := rfl
@[simp] theorem State.setOpa_codeChunks (v : Byte) : (s.setOpa v).codeChunks = s.codeChunks := rfl
@[simp] theorem State.setOpa_valid (v : Byte) : (s.setOpa v).valid = s.valid := rfl
@[simp] theorem State.setOpa_mdim0 (v : Byte) : (s.setOpa v).mdim0 = s.mdim0 := rfl
@[simp] theorem State.setOpa_mdim1 (v : Byte) : (s.setOpa v).mdim1 = s.mdim1 := rfl
@[simp] theorem State.setOpa_mdim2 (v : Byte) : (s.setOpa v).mdim2 = s.mdim2 := rfl
@[simp] theorem State.setOpa_mdim3 (v : Byte) : (s.setOpa v).mdim3 = s.mdim3 := rfl
@[simp] theorem State.setOpa_mem (v : Byte) : (s.setOpa v).mem = s.mem := rfl
@[simp] theorem State.setOpa_host (v : Byte) : (s.setOpa v).host = s.host := rfl
@[simp] theorem State.setOpa_sched (v : Byte) : (s.setOpa v).sched = s.sched := rfl
@[simp] theorem State.setOpa_resp (v : Byte) : (s.setOpa v).resp = s.resp := rfl
@[simp] theorem State.setOpa_draws (v : Byte) : (s.setOpa v).draws = s.draws := rfl
@[simp] theorem State.setOpa_resets (v : Byte) : (s.setOpa v).resets = s.resets := rfl
@[simp] theorem State.setOpa_mdim (v : Byte) (bank : BankId) : (s.setOpa v).mdim bank = s.mdim bank := rfl

@[simp] theorem State.setOpb_params (v : Byte) : (s.setOpb v).params = s.params := rfl
@[simp] theorem State.setOpb_phase (v : Byte) : (s.setOpb v).phase = s.phase := rfl
@[simp] theorem State.setOpb_irqEn (v : Byte) : (s.setOpb v).irqEn = s.irqEn := rfl
@[simp] theorem State.setOpb_done (v : Byte) : (s.setOpb v).done = s.done := rfl
@[simp] theorem State.setOpb_error (v : Byte) : (s.setOpb v).error = s.error := rfl
@[simp] theorem State.setOpb_overrun (v : Byte) : (s.setOpb v).overrun = s.overrun := rfl
@[simp] theorem State.setOpb_errcode (v : Byte) : (s.setOpb v).errcode = s.errcode := rfl
@[simp] theorem State.setOpb_cmd (v : Byte) : (s.setOpb v).cmd = s.cmd := rfl
@[simp] theorem State.setOpb_opa (v : Byte) : (s.setOpb v).opa = s.opa := rfl
@[simp] theorem State.setOpb_opb (v : Byte) : (s.setOpb v).opb = v := rfl
@[simp] theorem State.setOpb_result (v : Byte) : (s.setOpb v).result = s.result := rfl
@[simp] theorem State.setOpb_rowCount (v : Byte) : (s.setOpb v).rowCount = s.rowCount := rfl
@[simp] theorem State.setOpb_origLen (v : Byte) : (s.setOpb v).origLen = s.origLen := rfl
@[simp] theorem State.setOpb_dataChunks (v : Byte) : (s.setOpb v).dataChunks = s.dataChunks := rfl
@[simp] theorem State.setOpb_codeChunks (v : Byte) : (s.setOpb v).codeChunks = s.codeChunks := rfl
@[simp] theorem State.setOpb_valid (v : Byte) : (s.setOpb v).valid = s.valid := rfl
@[simp] theorem State.setOpb_mdim0 (v : Byte) : (s.setOpb v).mdim0 = s.mdim0 := rfl
@[simp] theorem State.setOpb_mdim1 (v : Byte) : (s.setOpb v).mdim1 = s.mdim1 := rfl
@[simp] theorem State.setOpb_mdim2 (v : Byte) : (s.setOpb v).mdim2 = s.mdim2 := rfl
@[simp] theorem State.setOpb_mdim3 (v : Byte) : (s.setOpb v).mdim3 = s.mdim3 := rfl
@[simp] theorem State.setOpb_mem (v : Byte) : (s.setOpb v).mem = s.mem := rfl
@[simp] theorem State.setOpb_host (v : Byte) : (s.setOpb v).host = s.host := rfl
@[simp] theorem State.setOpb_sched (v : Byte) : (s.setOpb v).sched = s.sched := rfl
@[simp] theorem State.setOpb_resp (v : Byte) : (s.setOpb v).resp = s.resp := rfl
@[simp] theorem State.setOpb_draws (v : Byte) : (s.setOpb v).draws = s.draws := rfl
@[simp] theorem State.setOpb_resets (v : Byte) : (s.setOpb v).resets = s.resets := rfl
@[simp] theorem State.setOpb_mdim (v : Byte) (bank : BankId) : (s.setOpb v).mdim bank = s.mdim bank := rfl

@[simp] theorem State.setResult_params (v : Byte) : (s.setResult v).params = s.params := rfl
@[simp] theorem State.setResult_phase (v : Byte) : (s.setResult v).phase = s.phase := rfl
@[simp] theorem State.setResult_irqEn (v : Byte) : (s.setResult v).irqEn = s.irqEn := rfl
@[simp] theorem State.setResult_done (v : Byte) : (s.setResult v).done = s.done := rfl
@[simp] theorem State.setResult_error (v : Byte) : (s.setResult v).error = s.error := rfl
@[simp] theorem State.setResult_overrun (v : Byte) : (s.setResult v).overrun = s.overrun := rfl
@[simp] theorem State.setResult_errcode (v : Byte) : (s.setResult v).errcode = s.errcode := rfl
@[simp] theorem State.setResult_cmd (v : Byte) : (s.setResult v).cmd = s.cmd := rfl
@[simp] theorem State.setResult_opa (v : Byte) : (s.setResult v).opa = s.opa := rfl
@[simp] theorem State.setResult_opb (v : Byte) : (s.setResult v).opb = s.opb := rfl
@[simp] theorem State.setResult_result (v : Byte) : (s.setResult v).result = v := rfl
@[simp] theorem State.setResult_rowCount (v : Byte) : (s.setResult v).rowCount = s.rowCount := rfl
@[simp] theorem State.setResult_origLen (v : Byte) : (s.setResult v).origLen = s.origLen := rfl
@[simp] theorem State.setResult_dataChunks (v : Byte) : (s.setResult v).dataChunks = s.dataChunks := rfl
@[simp] theorem State.setResult_codeChunks (v : Byte) : (s.setResult v).codeChunks = s.codeChunks := rfl
@[simp] theorem State.setResult_valid (v : Byte) : (s.setResult v).valid = s.valid := rfl
@[simp] theorem State.setResult_mdim0 (v : Byte) : (s.setResult v).mdim0 = s.mdim0 := rfl
@[simp] theorem State.setResult_mdim1 (v : Byte) : (s.setResult v).mdim1 = s.mdim1 := rfl
@[simp] theorem State.setResult_mdim2 (v : Byte) : (s.setResult v).mdim2 = s.mdim2 := rfl
@[simp] theorem State.setResult_mdim3 (v : Byte) : (s.setResult v).mdim3 = s.mdim3 := rfl
@[simp] theorem State.setResult_mem (v : Byte) : (s.setResult v).mem = s.mem := rfl
@[simp] theorem State.setResult_host (v : Byte) : (s.setResult v).host = s.host := rfl
@[simp] theorem State.setResult_sched (v : Byte) : (s.setResult v).sched = s.sched := rfl
@[simp] theorem State.setResult_resp (v : Byte) : (s.setResult v).resp = s.resp := rfl
@[simp] theorem State.setResult_draws (v : Byte) : (s.setResult v).draws = s.draws := rfl
@[simp] theorem State.setResult_resets (v : Byte) : (s.setResult v).resets = s.resets := rfl
@[simp] theorem State.setResult_mdim (v : Byte) (bank : BankId) : (s.setResult v).mdim bank = s.mdim bank := rfl

@[simp] theorem State.setRowCount_params (v : BitVec 16) : (s.setRowCount v).params = s.params := rfl
@[simp] theorem State.setRowCount_phase (v : BitVec 16) : (s.setRowCount v).phase = s.phase := rfl
@[simp] theorem State.setRowCount_irqEn (v : BitVec 16) : (s.setRowCount v).irqEn = s.irqEn := rfl
@[simp] theorem State.setRowCount_done (v : BitVec 16) : (s.setRowCount v).done = s.done := rfl
@[simp] theorem State.setRowCount_error (v : BitVec 16) : (s.setRowCount v).error = s.error := rfl
@[simp] theorem State.setRowCount_overrun (v : BitVec 16) : (s.setRowCount v).overrun = s.overrun := rfl
@[simp] theorem State.setRowCount_errcode (v : BitVec 16) : (s.setRowCount v).errcode = s.errcode := rfl
@[simp] theorem State.setRowCount_cmd (v : BitVec 16) : (s.setRowCount v).cmd = s.cmd := rfl
@[simp] theorem State.setRowCount_opa (v : BitVec 16) : (s.setRowCount v).opa = s.opa := rfl
@[simp] theorem State.setRowCount_opb (v : BitVec 16) : (s.setRowCount v).opb = s.opb := rfl
@[simp] theorem State.setRowCount_result (v : BitVec 16) : (s.setRowCount v).result = s.result := rfl
@[simp] theorem State.setRowCount_rowCount (v : BitVec 16) : (s.setRowCount v).rowCount = v := rfl
@[simp] theorem State.setRowCount_origLen (v : BitVec 16) : (s.setRowCount v).origLen = s.origLen := rfl
@[simp] theorem State.setRowCount_dataChunks (v : BitVec 16) : (s.setRowCount v).dataChunks = s.dataChunks := rfl
@[simp] theorem State.setRowCount_codeChunks (v : BitVec 16) : (s.setRowCount v).codeChunks = s.codeChunks := rfl
@[simp] theorem State.setRowCount_valid (v : BitVec 16) : (s.setRowCount v).valid = s.valid := rfl
@[simp] theorem State.setRowCount_mdim0 (v : BitVec 16) : (s.setRowCount v).mdim0 = s.mdim0 := rfl
@[simp] theorem State.setRowCount_mdim1 (v : BitVec 16) : (s.setRowCount v).mdim1 = s.mdim1 := rfl
@[simp] theorem State.setRowCount_mdim2 (v : BitVec 16) : (s.setRowCount v).mdim2 = s.mdim2 := rfl
@[simp] theorem State.setRowCount_mdim3 (v : BitVec 16) : (s.setRowCount v).mdim3 = s.mdim3 := rfl
@[simp] theorem State.setRowCount_mem (v : BitVec 16) : (s.setRowCount v).mem = s.mem := rfl
@[simp] theorem State.setRowCount_host (v : BitVec 16) : (s.setRowCount v).host = s.host := rfl
@[simp] theorem State.setRowCount_sched (v : BitVec 16) : (s.setRowCount v).sched = s.sched := rfl
@[simp] theorem State.setRowCount_resp (v : BitVec 16) : (s.setRowCount v).resp = s.resp := rfl
@[simp] theorem State.setRowCount_draws (v : BitVec 16) : (s.setRowCount v).draws = s.draws := rfl
@[simp] theorem State.setRowCount_resets (v : BitVec 16) : (s.setRowCount v).resets = s.resets := rfl
@[simp] theorem State.setRowCount_mdim (v : BitVec 16) (bank : BankId) : (s.setRowCount v).mdim bank = s.mdim bank := rfl

@[simp] theorem State.setOrigLen_params (v : BitVec 16) : (s.setOrigLen v).params = s.params := rfl
@[simp] theorem State.setOrigLen_phase (v : BitVec 16) : (s.setOrigLen v).phase = s.phase := rfl
@[simp] theorem State.setOrigLen_irqEn (v : BitVec 16) : (s.setOrigLen v).irqEn = s.irqEn := rfl
@[simp] theorem State.setOrigLen_done (v : BitVec 16) : (s.setOrigLen v).done = s.done := rfl
@[simp] theorem State.setOrigLen_error (v : BitVec 16) : (s.setOrigLen v).error = s.error := rfl
@[simp] theorem State.setOrigLen_overrun (v : BitVec 16) : (s.setOrigLen v).overrun = s.overrun := rfl
@[simp] theorem State.setOrigLen_errcode (v : BitVec 16) : (s.setOrigLen v).errcode = s.errcode := rfl
@[simp] theorem State.setOrigLen_cmd (v : BitVec 16) : (s.setOrigLen v).cmd = s.cmd := rfl
@[simp] theorem State.setOrigLen_opa (v : BitVec 16) : (s.setOrigLen v).opa = s.opa := rfl
@[simp] theorem State.setOrigLen_opb (v : BitVec 16) : (s.setOrigLen v).opb = s.opb := rfl
@[simp] theorem State.setOrigLen_result (v : BitVec 16) : (s.setOrigLen v).result = s.result := rfl
@[simp] theorem State.setOrigLen_rowCount (v : BitVec 16) : (s.setOrigLen v).rowCount = s.rowCount := rfl
@[simp] theorem State.setOrigLen_origLen (v : BitVec 16) : (s.setOrigLen v).origLen = v := rfl
@[simp] theorem State.setOrigLen_dataChunks (v : BitVec 16) : (s.setOrigLen v).dataChunks = s.dataChunks := rfl
@[simp] theorem State.setOrigLen_codeChunks (v : BitVec 16) : (s.setOrigLen v).codeChunks = s.codeChunks := rfl
@[simp] theorem State.setOrigLen_valid (v : BitVec 16) : (s.setOrigLen v).valid = s.valid := rfl
@[simp] theorem State.setOrigLen_mdim0 (v : BitVec 16) : (s.setOrigLen v).mdim0 = s.mdim0 := rfl
@[simp] theorem State.setOrigLen_mdim1 (v : BitVec 16) : (s.setOrigLen v).mdim1 = s.mdim1 := rfl
@[simp] theorem State.setOrigLen_mdim2 (v : BitVec 16) : (s.setOrigLen v).mdim2 = s.mdim2 := rfl
@[simp] theorem State.setOrigLen_mdim3 (v : BitVec 16) : (s.setOrigLen v).mdim3 = s.mdim3 := rfl
@[simp] theorem State.setOrigLen_mem (v : BitVec 16) : (s.setOrigLen v).mem = s.mem := rfl
@[simp] theorem State.setOrigLen_host (v : BitVec 16) : (s.setOrigLen v).host = s.host := rfl
@[simp] theorem State.setOrigLen_sched (v : BitVec 16) : (s.setOrigLen v).sched = s.sched := rfl
@[simp] theorem State.setOrigLen_resp (v : BitVec 16) : (s.setOrigLen v).resp = s.resp := rfl
@[simp] theorem State.setOrigLen_draws (v : BitVec 16) : (s.setOrigLen v).draws = s.draws := rfl
@[simp] theorem State.setOrigLen_resets (v : BitVec 16) : (s.setOrigLen v).resets = s.resets := rfl
@[simp] theorem State.setOrigLen_mdim (v : BitVec 16) (bank : BankId) : (s.setOrigLen v).mdim bank = s.mdim bank := rfl

@[simp] theorem State.setDataChunks_params (v : Byte) : (s.setDataChunks v).params = s.params := rfl
@[simp] theorem State.setDataChunks_phase (v : Byte) : (s.setDataChunks v).phase = s.phase := rfl
@[simp] theorem State.setDataChunks_irqEn (v : Byte) : (s.setDataChunks v).irqEn = s.irqEn := rfl
@[simp] theorem State.setDataChunks_done (v : Byte) : (s.setDataChunks v).done = s.done := rfl
@[simp] theorem State.setDataChunks_error (v : Byte) : (s.setDataChunks v).error = s.error := rfl
@[simp] theorem State.setDataChunks_overrun (v : Byte) : (s.setDataChunks v).overrun = s.overrun := rfl
@[simp] theorem State.setDataChunks_errcode (v : Byte) : (s.setDataChunks v).errcode = s.errcode := rfl
@[simp] theorem State.setDataChunks_cmd (v : Byte) : (s.setDataChunks v).cmd = s.cmd := rfl
@[simp] theorem State.setDataChunks_opa (v : Byte) : (s.setDataChunks v).opa = s.opa := rfl
@[simp] theorem State.setDataChunks_opb (v : Byte) : (s.setDataChunks v).opb = s.opb := rfl
@[simp] theorem State.setDataChunks_result (v : Byte) : (s.setDataChunks v).result = s.result := rfl
@[simp] theorem State.setDataChunks_rowCount (v : Byte) : (s.setDataChunks v).rowCount = s.rowCount := rfl
@[simp] theorem State.setDataChunks_origLen (v : Byte) : (s.setDataChunks v).origLen = s.origLen := rfl
@[simp] theorem State.setDataChunks_dataChunks (v : Byte) : (s.setDataChunks v).dataChunks = v := rfl
@[simp] theorem State.setDataChunks_codeChunks (v : Byte) : (s.setDataChunks v).codeChunks = s.codeChunks := rfl
@[simp] theorem State.setDataChunks_valid (v : Byte) : (s.setDataChunks v).valid = s.valid := rfl
@[simp] theorem State.setDataChunks_mdim0 (v : Byte) : (s.setDataChunks v).mdim0 = s.mdim0 := rfl
@[simp] theorem State.setDataChunks_mdim1 (v : Byte) : (s.setDataChunks v).mdim1 = s.mdim1 := rfl
@[simp] theorem State.setDataChunks_mdim2 (v : Byte) : (s.setDataChunks v).mdim2 = s.mdim2 := rfl
@[simp] theorem State.setDataChunks_mdim3 (v : Byte) : (s.setDataChunks v).mdim3 = s.mdim3 := rfl
@[simp] theorem State.setDataChunks_mem (v : Byte) : (s.setDataChunks v).mem = s.mem := rfl
@[simp] theorem State.setDataChunks_host (v : Byte) : (s.setDataChunks v).host = s.host := rfl
@[simp] theorem State.setDataChunks_sched (v : Byte) : (s.setDataChunks v).sched = s.sched := rfl
@[simp] theorem State.setDataChunks_resp (v : Byte) : (s.setDataChunks v).resp = s.resp := rfl
@[simp] theorem State.setDataChunks_draws (v : Byte) : (s.setDataChunks v).draws = s.draws := rfl
@[simp] theorem State.setDataChunks_resets (v : Byte) : (s.setDataChunks v).resets = s.resets := rfl
@[simp] theorem State.setDataChunks_mdim (v : Byte) (bank : BankId) : (s.setDataChunks v).mdim bank = s.mdim bank := rfl

@[simp] theorem State.setCodeChunks_params (v : Byte) : (s.setCodeChunks v).params = s.params := rfl
@[simp] theorem State.setCodeChunks_phase (v : Byte) : (s.setCodeChunks v).phase = s.phase := rfl
@[simp] theorem State.setCodeChunks_irqEn (v : Byte) : (s.setCodeChunks v).irqEn = s.irqEn := rfl
@[simp] theorem State.setCodeChunks_done (v : Byte) : (s.setCodeChunks v).done = s.done := rfl
@[simp] theorem State.setCodeChunks_error (v : Byte) : (s.setCodeChunks v).error = s.error := rfl
@[simp] theorem State.setCodeChunks_overrun (v : Byte) : (s.setCodeChunks v).overrun = s.overrun := rfl
@[simp] theorem State.setCodeChunks_errcode (v : Byte) : (s.setCodeChunks v).errcode = s.errcode := rfl
@[simp] theorem State.setCodeChunks_cmd (v : Byte) : (s.setCodeChunks v).cmd = s.cmd := rfl
@[simp] theorem State.setCodeChunks_opa (v : Byte) : (s.setCodeChunks v).opa = s.opa := rfl
@[simp] theorem State.setCodeChunks_opb (v : Byte) : (s.setCodeChunks v).opb = s.opb := rfl
@[simp] theorem State.setCodeChunks_result (v : Byte) : (s.setCodeChunks v).result = s.result := rfl
@[simp] theorem State.setCodeChunks_rowCount (v : Byte) : (s.setCodeChunks v).rowCount = s.rowCount := rfl
@[simp] theorem State.setCodeChunks_origLen (v : Byte) : (s.setCodeChunks v).origLen = s.origLen := rfl
@[simp] theorem State.setCodeChunks_dataChunks (v : Byte) : (s.setCodeChunks v).dataChunks = s.dataChunks := rfl
@[simp] theorem State.setCodeChunks_codeChunks (v : Byte) : (s.setCodeChunks v).codeChunks = v := rfl
@[simp] theorem State.setCodeChunks_valid (v : Byte) : (s.setCodeChunks v).valid = s.valid := rfl
@[simp] theorem State.setCodeChunks_mdim0 (v : Byte) : (s.setCodeChunks v).mdim0 = s.mdim0 := rfl
@[simp] theorem State.setCodeChunks_mdim1 (v : Byte) : (s.setCodeChunks v).mdim1 = s.mdim1 := rfl
@[simp] theorem State.setCodeChunks_mdim2 (v : Byte) : (s.setCodeChunks v).mdim2 = s.mdim2 := rfl
@[simp] theorem State.setCodeChunks_mdim3 (v : Byte) : (s.setCodeChunks v).mdim3 = s.mdim3 := rfl
@[simp] theorem State.setCodeChunks_mem (v : Byte) : (s.setCodeChunks v).mem = s.mem := rfl
@[simp] theorem State.setCodeChunks_host (v : Byte) : (s.setCodeChunks v).host = s.host := rfl
@[simp] theorem State.setCodeChunks_sched (v : Byte) : (s.setCodeChunks v).sched = s.sched := rfl
@[simp] theorem State.setCodeChunks_resp (v : Byte) : (s.setCodeChunks v).resp = s.resp := rfl
@[simp] theorem State.setCodeChunks_draws (v : Byte) : (s.setCodeChunks v).draws = s.draws := rfl
@[simp] theorem State.setCodeChunks_resets (v : Byte) : (s.setCodeChunks v).resets = s.resets := rfl
@[simp] theorem State.setCodeChunks_mdim (v : Byte) (bank : BankId) : (s.setCodeChunks v).mdim bank = s.mdim bank := rfl

@[simp] theorem State.setValid_params (v : Word) : (s.setValid v).params = s.params := rfl
@[simp] theorem State.setValid_phase (v : Word) : (s.setValid v).phase = s.phase := rfl
@[simp] theorem State.setValid_irqEn (v : Word) : (s.setValid v).irqEn = s.irqEn := rfl
@[simp] theorem State.setValid_done (v : Word) : (s.setValid v).done = s.done := rfl
@[simp] theorem State.setValid_error (v : Word) : (s.setValid v).error = s.error := rfl
@[simp] theorem State.setValid_overrun (v : Word) : (s.setValid v).overrun = s.overrun := rfl
@[simp] theorem State.setValid_errcode (v : Word) : (s.setValid v).errcode = s.errcode := rfl
@[simp] theorem State.setValid_cmd (v : Word) : (s.setValid v).cmd = s.cmd := rfl
@[simp] theorem State.setValid_opa (v : Word) : (s.setValid v).opa = s.opa := rfl
@[simp] theorem State.setValid_opb (v : Word) : (s.setValid v).opb = s.opb := rfl
@[simp] theorem State.setValid_result (v : Word) : (s.setValid v).result = s.result := rfl
@[simp] theorem State.setValid_rowCount (v : Word) : (s.setValid v).rowCount = s.rowCount := rfl
@[simp] theorem State.setValid_origLen (v : Word) : (s.setValid v).origLen = s.origLen := rfl
@[simp] theorem State.setValid_dataChunks (v : Word) : (s.setValid v).dataChunks = s.dataChunks := rfl
@[simp] theorem State.setValid_codeChunks (v : Word) : (s.setValid v).codeChunks = s.codeChunks := rfl
@[simp] theorem State.setValid_valid (v : Word) : (s.setValid v).valid = v := rfl
@[simp] theorem State.setValid_mdim0 (v : Word) : (s.setValid v).mdim0 = s.mdim0 := rfl
@[simp] theorem State.setValid_mdim1 (v : Word) : (s.setValid v).mdim1 = s.mdim1 := rfl
@[simp] theorem State.setValid_mdim2 (v : Word) : (s.setValid v).mdim2 = s.mdim2 := rfl
@[simp] theorem State.setValid_mdim3 (v : Word) : (s.setValid v).mdim3 = s.mdim3 := rfl
@[simp] theorem State.setValid_mem (v : Word) : (s.setValid v).mem = s.mem := rfl
@[simp] theorem State.setValid_host (v : Word) : (s.setValid v).host = s.host := rfl
@[simp] theorem State.setValid_sched (v : Word) : (s.setValid v).sched = s.sched := rfl
@[simp] theorem State.setValid_resp (v : Word) : (s.setValid v).resp = s.resp := rfl
@[simp] theorem State.setValid_draws (v : Word) : (s.setValid v).draws = s.draws := rfl
@[simp] theorem State.setValid_resets (v : Word) : (s.setValid v).resets = s.resets := rfl
@[simp] theorem State.setValid_mdim (v : Word) (bank : BankId) : (s.setValid v).mdim bank = s.mdim bank := rfl

@[simp] theorem State.setMdim_params (b : BankId) (sh : Shape) : (s.setMdim b sh).params = s.params := rfl
@[simp] theorem State.setMdim_phase (b : BankId) (sh : Shape) : (s.setMdim b sh).phase = s.phase := rfl
@[simp] theorem State.setMdim_irqEn (b : BankId) (sh : Shape) : (s.setMdim b sh).irqEn = s.irqEn := rfl
@[simp] theorem State.setMdim_done (b : BankId) (sh : Shape) : (s.setMdim b sh).done = s.done := rfl
@[simp] theorem State.setMdim_error (b : BankId) (sh : Shape) : (s.setMdim b sh).error = s.error := rfl
@[simp] theorem State.setMdim_overrun (b : BankId) (sh : Shape) : (s.setMdim b sh).overrun = s.overrun := rfl
@[simp] theorem State.setMdim_errcode (b : BankId) (sh : Shape) : (s.setMdim b sh).errcode = s.errcode := rfl
@[simp] theorem State.setMdim_cmd (b : BankId) (sh : Shape) : (s.setMdim b sh).cmd = s.cmd := rfl
@[simp] theorem State.setMdim_opa (b : BankId) (sh : Shape) : (s.setMdim b sh).opa = s.opa := rfl
@[simp] theorem State.setMdim_opb (b : BankId) (sh : Shape) : (s.setMdim b sh).opb = s.opb := rfl
@[simp] theorem State.setMdim_result (b : BankId) (sh : Shape) : (s.setMdim b sh).result = s.result := rfl
@[simp] theorem State.setMdim_rowCount (b : BankId) (sh : Shape) : (s.setMdim b sh).rowCount = s.rowCount := rfl
@[simp] theorem State.setMdim_origLen (b : BankId) (sh : Shape) : (s.setMdim b sh).origLen = s.origLen := rfl
@[simp] theorem State.setMdim_dataChunks (b : BankId) (sh : Shape) : (s.setMdim b sh).dataChunks = s.dataChunks := rfl
@[simp] theorem State.setMdim_codeChunks (b : BankId) (sh : Shape) : (s.setMdim b sh).codeChunks = s.codeChunks := rfl
@[simp] theorem State.setMdim_valid (b : BankId) (sh : Shape) : (s.setMdim b sh).valid = s.valid := rfl
@[simp] theorem State.setMdim_mdim0 (b : BankId) (sh : Shape) : (s.setMdim b sh).mdim0 = if b = 0 then sh else s.mdim0 := rfl
@[simp] theorem State.setMdim_mdim1 (b : BankId) (sh : Shape) : (s.setMdim b sh).mdim1 = if b = 1 then sh else s.mdim1 := rfl
@[simp] theorem State.setMdim_mdim2 (b : BankId) (sh : Shape) : (s.setMdim b sh).mdim2 = if b = 2 then sh else s.mdim2 := rfl
@[simp] theorem State.setMdim_mdim3 (b : BankId) (sh : Shape) : (s.setMdim b sh).mdim3 = if b = 3 then sh else s.mdim3 := rfl
@[simp] theorem State.setMdim_mem (b : BankId) (sh : Shape) : (s.setMdim b sh).mem = s.mem := rfl
@[simp] theorem State.setMdim_host (b : BankId) (sh : Shape) : (s.setMdim b sh).host = s.host := rfl
@[simp] theorem State.setMdim_sched (b : BankId) (sh : Shape) : (s.setMdim b sh).sched = s.sched := rfl
@[simp] theorem State.setMdim_resp (b : BankId) (sh : Shape) : (s.setMdim b sh).resp = s.resp := rfl
@[simp] theorem State.setMdim_draws (b : BankId) (sh : Shape) : (s.setMdim b sh).draws = s.draws := rfl
@[simp] theorem State.setMdim_resets (b : BankId) (sh : Shape) : (s.setMdim b sh).resets = s.resets := rfl

@[simp] theorem State.setMem_params (m : Memory) : (s.setMem m).params = s.params := rfl
@[simp] theorem State.setMem_phase (m : Memory) : (s.setMem m).phase = s.phase := rfl
@[simp] theorem State.setMem_irqEn (m : Memory) : (s.setMem m).irqEn = s.irqEn := rfl
@[simp] theorem State.setMem_done (m : Memory) : (s.setMem m).done = s.done := rfl
@[simp] theorem State.setMem_error (m : Memory) : (s.setMem m).error = s.error := rfl
@[simp] theorem State.setMem_overrun (m : Memory) : (s.setMem m).overrun = s.overrun := rfl
@[simp] theorem State.setMem_errcode (m : Memory) : (s.setMem m).errcode = s.errcode := rfl
@[simp] theorem State.setMem_cmd (m : Memory) : (s.setMem m).cmd = s.cmd := rfl
@[simp] theorem State.setMem_opa (m : Memory) : (s.setMem m).opa = s.opa := rfl
@[simp] theorem State.setMem_opb (m : Memory) : (s.setMem m).opb = s.opb := rfl
@[simp] theorem State.setMem_result (m : Memory) : (s.setMem m).result = s.result := rfl
@[simp] theorem State.setMem_rowCount (m : Memory) : (s.setMem m).rowCount = s.rowCount := rfl
@[simp] theorem State.setMem_origLen (m : Memory) : (s.setMem m).origLen = s.origLen := rfl
@[simp] theorem State.setMem_dataChunks (m : Memory) : (s.setMem m).dataChunks = s.dataChunks := rfl
@[simp] theorem State.setMem_codeChunks (m : Memory) : (s.setMem m).codeChunks = s.codeChunks := rfl
@[simp] theorem State.setMem_valid (m : Memory) : (s.setMem m).valid = s.valid := rfl
@[simp] theorem State.setMem_mdim0 (m : Memory) : (s.setMem m).mdim0 = s.mdim0 := rfl
@[simp] theorem State.setMem_mdim1 (m : Memory) : (s.setMem m).mdim1 = s.mdim1 := rfl
@[simp] theorem State.setMem_mdim2 (m : Memory) : (s.setMem m).mdim2 = s.mdim2 := rfl
@[simp] theorem State.setMem_mdim3 (m : Memory) : (s.setMem m).mdim3 = s.mdim3 := rfl
@[simp] theorem State.setMem_mem (m : Memory) : (s.setMem m).mem = m := rfl
@[simp] theorem State.setMem_host (m : Memory) : (s.setMem m).host = s.host := rfl
@[simp] theorem State.setMem_sched (m : Memory) : (s.setMem m).sched = s.sched := rfl
@[simp] theorem State.setMem_resp (m : Memory) : (s.setMem m).resp = s.resp := rfl
@[simp] theorem State.setMem_draws (m : Memory) : (s.setMem m).draws = s.draws := rfl
@[simp] theorem State.setMem_resets (m : Memory) : (s.setMem m).resets = s.resets := rfl
@[simp] theorem State.setMem_mdim (m : Memory) (bank : BankId) : (s.setMem m).mdim bank = s.mdim bank := rfl

@[simp] theorem State.setHost_params (l : List HostOp) : (s.setHost l).params = s.params := rfl
@[simp] theorem State.setHost_phase (l : List HostOp) : (s.setHost l).phase = s.phase := rfl
@[simp] theorem State.setHost_irqEn (l : List HostOp) : (s.setHost l).irqEn = s.irqEn := rfl
@[simp] theorem State.setHost_done (l : List HostOp) : (s.setHost l).done = s.done := rfl
@[simp] theorem State.setHost_error (l : List HostOp) : (s.setHost l).error = s.error := rfl
@[simp] theorem State.setHost_overrun (l : List HostOp) : (s.setHost l).overrun = s.overrun := rfl
@[simp] theorem State.setHost_errcode (l : List HostOp) : (s.setHost l).errcode = s.errcode := rfl
@[simp] theorem State.setHost_cmd (l : List HostOp) : (s.setHost l).cmd = s.cmd := rfl
@[simp] theorem State.setHost_opa (l : List HostOp) : (s.setHost l).opa = s.opa := rfl
@[simp] theorem State.setHost_opb (l : List HostOp) : (s.setHost l).opb = s.opb := rfl
@[simp] theorem State.setHost_result (l : List HostOp) : (s.setHost l).result = s.result := rfl
@[simp] theorem State.setHost_rowCount (l : List HostOp) : (s.setHost l).rowCount = s.rowCount := rfl
@[simp] theorem State.setHost_origLen (l : List HostOp) : (s.setHost l).origLen = s.origLen := rfl
@[simp] theorem State.setHost_dataChunks (l : List HostOp) : (s.setHost l).dataChunks = s.dataChunks := rfl
@[simp] theorem State.setHost_codeChunks (l : List HostOp) : (s.setHost l).codeChunks = s.codeChunks := rfl
@[simp] theorem State.setHost_valid (l : List HostOp) : (s.setHost l).valid = s.valid := rfl
@[simp] theorem State.setHost_mdim0 (l : List HostOp) : (s.setHost l).mdim0 = s.mdim0 := rfl
@[simp] theorem State.setHost_mdim1 (l : List HostOp) : (s.setHost l).mdim1 = s.mdim1 := rfl
@[simp] theorem State.setHost_mdim2 (l : List HostOp) : (s.setHost l).mdim2 = s.mdim2 := rfl
@[simp] theorem State.setHost_mdim3 (l : List HostOp) : (s.setHost l).mdim3 = s.mdim3 := rfl
@[simp] theorem State.setHost_mem (l : List HostOp) : (s.setHost l).mem = s.mem := rfl
@[simp] theorem State.setHost_host (l : List HostOp) : (s.setHost l).host = l := rfl
@[simp] theorem State.setHost_sched (l : List HostOp) : (s.setHost l).sched = s.sched := rfl
@[simp] theorem State.setHost_resp (l : List HostOp) : (s.setHost l).resp = s.resp := rfl
@[simp] theorem State.setHost_draws (l : List HostOp) : (s.setHost l).draws = s.draws := rfl
@[simp] theorem State.setHost_resets (l : List HostOp) : (s.setHost l).resets = s.resets := rfl
@[simp] theorem State.setHost_mdim (l : List HostOp) (bank : BankId) : (s.setHost l).mdim bank = s.mdim bank := rfl

@[simp] theorem State.setSched_params (l : List Turn) : (s.setSched l).params = s.params := rfl
@[simp] theorem State.setSched_phase (l : List Turn) : (s.setSched l).phase = s.phase := rfl
@[simp] theorem State.setSched_irqEn (l : List Turn) : (s.setSched l).irqEn = s.irqEn := rfl
@[simp] theorem State.setSched_done (l : List Turn) : (s.setSched l).done = s.done := rfl
@[simp] theorem State.setSched_error (l : List Turn) : (s.setSched l).error = s.error := rfl
@[simp] theorem State.setSched_overrun (l : List Turn) : (s.setSched l).overrun = s.overrun := rfl
@[simp] theorem State.setSched_errcode (l : List Turn) : (s.setSched l).errcode = s.errcode := rfl
@[simp] theorem State.setSched_cmd (l : List Turn) : (s.setSched l).cmd = s.cmd := rfl
@[simp] theorem State.setSched_opa (l : List Turn) : (s.setSched l).opa = s.opa := rfl
@[simp] theorem State.setSched_opb (l : List Turn) : (s.setSched l).opb = s.opb := rfl
@[simp] theorem State.setSched_result (l : List Turn) : (s.setSched l).result = s.result := rfl
@[simp] theorem State.setSched_rowCount (l : List Turn) : (s.setSched l).rowCount = s.rowCount := rfl
@[simp] theorem State.setSched_origLen (l : List Turn) : (s.setSched l).origLen = s.origLen := rfl
@[simp] theorem State.setSched_dataChunks (l : List Turn) : (s.setSched l).dataChunks = s.dataChunks := rfl
@[simp] theorem State.setSched_codeChunks (l : List Turn) : (s.setSched l).codeChunks = s.codeChunks := rfl
@[simp] theorem State.setSched_valid (l : List Turn) : (s.setSched l).valid = s.valid := rfl
@[simp] theorem State.setSched_mdim0 (l : List Turn) : (s.setSched l).mdim0 = s.mdim0 := rfl
@[simp] theorem State.setSched_mdim1 (l : List Turn) : (s.setSched l).mdim1 = s.mdim1 := rfl
@[simp] theorem State.setSched_mdim2 (l : List Turn) : (s.setSched l).mdim2 = s.mdim2 := rfl
@[simp] theorem State.setSched_mdim3 (l : List Turn) : (s.setSched l).mdim3 = s.mdim3 := rfl
@[simp] theorem State.setSched_mem (l : List Turn) : (s.setSched l).mem = s.mem := rfl
@[simp] theorem State.setSched_host (l : List Turn) : (s.setSched l).host = s.host := rfl
@[simp] theorem State.setSched_sched (l : List Turn) : (s.setSched l).sched = l := rfl
@[simp] theorem State.setSched_resp (l : List Turn) : (s.setSched l).resp = s.resp := rfl
@[simp] theorem State.setSched_draws (l : List Turn) : (s.setSched l).draws = s.draws := rfl
@[simp] theorem State.setSched_resets (l : List Turn) : (s.setSched l).resets = s.resets := rfl
@[simp] theorem State.setSched_mdim (l : List Turn) (bank : BankId) : (s.setSched l).mdim bank = s.mdim bank := rfl

@[simp] theorem State.setResp_params (r : Option Response) : (s.setResp r).params = s.params := rfl
@[simp] theorem State.setResp_phase (r : Option Response) : (s.setResp r).phase = s.phase := rfl
@[simp] theorem State.setResp_irqEn (r : Option Response) : (s.setResp r).irqEn = s.irqEn := rfl
@[simp] theorem State.setResp_done (r : Option Response) : (s.setResp r).done = s.done := rfl
@[simp] theorem State.setResp_error (r : Option Response) : (s.setResp r).error = s.error := rfl
@[simp] theorem State.setResp_overrun (r : Option Response) : (s.setResp r).overrun = s.overrun := rfl
@[simp] theorem State.setResp_errcode (r : Option Response) : (s.setResp r).errcode = s.errcode := rfl
@[simp] theorem State.setResp_cmd (r : Option Response) : (s.setResp r).cmd = s.cmd := rfl
@[simp] theorem State.setResp_opa (r : Option Response) : (s.setResp r).opa = s.opa := rfl
@[simp] theorem State.setResp_opb (r : Option Response) : (s.setResp r).opb = s.opb := rfl
@[simp] theorem State.setResp_result (r : Option Response) : (s.setResp r).result = s.result := rfl
@[simp] theorem State.setResp_rowCount (r : Option Response) : (s.setResp r).rowCount = s.rowCount := rfl
@[simp] theorem State.setResp_origLen (r : Option Response) : (s.setResp r).origLen = s.origLen := rfl
@[simp] theorem State.setResp_dataChunks (r : Option Response) : (s.setResp r).dataChunks = s.dataChunks := rfl
@[simp] theorem State.setResp_codeChunks (r : Option Response) : (s.setResp r).codeChunks = s.codeChunks := rfl
@[simp] theorem State.setResp_valid (r : Option Response) : (s.setResp r).valid = s.valid := rfl
@[simp] theorem State.setResp_mdim0 (r : Option Response) : (s.setResp r).mdim0 = s.mdim0 := rfl
@[simp] theorem State.setResp_mdim1 (r : Option Response) : (s.setResp r).mdim1 = s.mdim1 := rfl
@[simp] theorem State.setResp_mdim2 (r : Option Response) : (s.setResp r).mdim2 = s.mdim2 := rfl
@[simp] theorem State.setResp_mdim3 (r : Option Response) : (s.setResp r).mdim3 = s.mdim3 := rfl
@[simp] theorem State.setResp_mem (r : Option Response) : (s.setResp r).mem = s.mem := rfl
@[simp] theorem State.setResp_host (r : Option Response) : (s.setResp r).host = s.host := rfl
@[simp] theorem State.setResp_sched (r : Option Response) : (s.setResp r).sched = s.sched := rfl
@[simp] theorem State.setResp_resp (r : Option Response) : (s.setResp r).resp = r := rfl
@[simp] theorem State.setResp_draws (r : Option Response) : (s.setResp r).draws = s.draws := rfl
@[simp] theorem State.setResp_resets (r : Option Response) : (s.setResp r).resets = s.resets := rfl
@[simp] theorem State.setResp_mdim (r : Option Response) (bank : BankId) : (s.setResp r).mdim bank = s.mdim bank := rfl

@[simp] theorem State.setDraws_params (n : Nat) : (s.setDraws n).params = s.params := rfl
@[simp] theorem State.setDraws_phase (n : Nat) : (s.setDraws n).phase = s.phase := rfl
@[simp] theorem State.setDraws_irqEn (n : Nat) : (s.setDraws n).irqEn = s.irqEn := rfl
@[simp] theorem State.setDraws_done (n : Nat) : (s.setDraws n).done = s.done := rfl
@[simp] theorem State.setDraws_error (n : Nat) : (s.setDraws n).error = s.error := rfl
@[simp] theorem State.setDraws_overrun (n : Nat) : (s.setDraws n).overrun = s.overrun := rfl
@[simp] theorem State.setDraws_errcode (n : Nat) : (s.setDraws n).errcode = s.errcode := rfl
@[simp] theorem State.setDraws_cmd (n : Nat) : (s.setDraws n).cmd = s.cmd := rfl
@[simp] theorem State.setDraws_opa (n : Nat) : (s.setDraws n).opa = s.opa := rfl
@[simp] theorem State.setDraws_opb (n : Nat) : (s.setDraws n).opb = s.opb := rfl
@[simp] theorem State.setDraws_result (n : Nat) : (s.setDraws n).result = s.result := rfl
@[simp] theorem State.setDraws_rowCount (n : Nat) : (s.setDraws n).rowCount = s.rowCount := rfl
@[simp] theorem State.setDraws_origLen (n : Nat) : (s.setDraws n).origLen = s.origLen := rfl
@[simp] theorem State.setDraws_dataChunks (n : Nat) : (s.setDraws n).dataChunks = s.dataChunks := rfl
@[simp] theorem State.setDraws_codeChunks (n : Nat) : (s.setDraws n).codeChunks = s.codeChunks := rfl
@[simp] theorem State.setDraws_valid (n : Nat) : (s.setDraws n).valid = s.valid := rfl
@[simp] theorem State.setDraws_mdim0 (n : Nat) : (s.setDraws n).mdim0 = s.mdim0 := rfl
@[simp] theorem State.setDraws_mdim1 (n : Nat) : (s.setDraws n).mdim1 = s.mdim1 := rfl
@[simp] theorem State.setDraws_mdim2 (n : Nat) : (s.setDraws n).mdim2 = s.mdim2 := rfl
@[simp] theorem State.setDraws_mdim3 (n : Nat) : (s.setDraws n).mdim3 = s.mdim3 := rfl
@[simp] theorem State.setDraws_mem (n : Nat) : (s.setDraws n).mem = s.mem := rfl
@[simp] theorem State.setDraws_host (n : Nat) : (s.setDraws n).host = s.host := rfl
@[simp] theorem State.setDraws_sched (n : Nat) : (s.setDraws n).sched = s.sched := rfl
@[simp] theorem State.setDraws_resp (n : Nat) : (s.setDraws n).resp = s.resp := rfl
@[simp] theorem State.setDraws_draws (n : Nat) : (s.setDraws n).draws = n := rfl
@[simp] theorem State.setDraws_resets (n : Nat) : (s.setDraws n).resets = s.resets := rfl
@[simp] theorem State.setDraws_mdim (n : Nat) (bank : BankId) : (s.setDraws n).mdim bank = s.mdim bank := rfl

@[simp] theorem State.setResets_params (n : Nat) : (s.setResets n).params = s.params := rfl
@[simp] theorem State.setResets_phase (n : Nat) : (s.setResets n).phase = s.phase := rfl
@[simp] theorem State.setResets_irqEn (n : Nat) : (s.setResets n).irqEn = s.irqEn := rfl
@[simp] theorem State.setResets_done (n : Nat) : (s.setResets n).done = s.done := rfl
@[simp] theorem State.setResets_error (n : Nat) : (s.setResets n).error = s.error := rfl
@[simp] theorem State.setResets_overrun (n : Nat) : (s.setResets n).overrun = s.overrun := rfl
@[simp] theorem State.setResets_errcode (n : Nat) : (s.setResets n).errcode = s.errcode := rfl
@[simp] theorem State.setResets_cmd (n : Nat) : (s.setResets n).cmd = s.cmd := rfl
@[simp] theorem State.setResets_opa (n : Nat) : (s.setResets n).opa = s.opa := rfl
@[simp] theorem State.setResets_opb (n : Nat) : (s.setResets n).opb = s.opb := rfl
@[simp] theorem State.setResets_result (n : Nat) : (s.setResets n).result = s.result := rfl
@[simp] theorem State.setResets_rowCount (n : Nat) : (s.setResets n).rowCount = s.rowCount := rfl
@[simp] theorem State.setResets_origLen (n : Nat) : (s.setResets n).origLen = s.origLen := rfl
@[simp] theorem State.setResets_dataChunks (n : Nat) : (s.setResets n).dataChunks = s.dataChunks := rfl
@[simp] theorem State.setResets_codeChunks (n : Nat) : (s.setResets n).codeChunks = s.codeChunks := rfl
@[simp] theorem State.setResets_valid (n : Nat) : (s.setResets n).valid = s.valid := rfl
@[simp] theorem State.setResets_mdim0 (n : Nat) : (s.setResets n).mdim0 = s.mdim0 := rfl
@[simp] theorem State.setResets_mdim1 (n : Nat) : (s.setResets n).mdim1 = s.mdim1 := rfl
@[simp] theorem State.setResets_mdim2 (n : Nat) : (s.setResets n).mdim2 = s.mdim2 := rfl
@[simp] theorem State.setResets_mdim3 (n : Nat) : (s.setResets n).mdim3 = s.mdim3 := rfl
@[simp] theorem State.setResets_mem (n : Nat) : (s.setResets n).mem = s.mem := rfl
@[simp] theorem State.setResets_host (n : Nat) : (s.setResets n).host = s.host := rfl
@[simp] theorem State.setResets_sched (n : Nat) : (s.setResets n).sched = s.sched := rfl
@[simp] theorem State.setResets_resp (n : Nat) : (s.setResets n).resp = s.resp := rfl
@[simp] theorem State.setResets_draws (n : Nat) : (s.setResets n).draws = s.draws := rfl
@[simp] theorem State.setResets_resets (n : Nat) : (s.setResets n).resets = n := rfl
@[simp] theorem State.setResets_mdim (n : Nat) (bank : BankId) : (s.setResets n).mdim bank = s.mdim bank := rfl

theorem State.mdim_setMdim (b c : BankId) (sh : Shape) :
    (s.setMdim b sh).mdim c = if c = b then sh else s.mdim c := by
  fin_cases b <;> fin_cases c <;> rfl

@[simp] theorem State.mdim_setMdim_same (b : BankId) (sh : Shape) : (s.setMdim b sh).mdim b = sh := by
  simp [State.mdim_setMdim]

theorem State.mdim_setMdim_ne (b c : BankId) (sh : Shape) (h : c ≠ b) :
    (s.setMdim b sh).mdim c = s.mdim c := by
  simp [State.mdim_setMdim, h]

end Sys2Proof.Machine
end

