-- ==== Sys2Proof/Laws/Memory.lean ====
section
/-! SUPPORT. Laws of the buffer memory: read after write, read after many stores, and that every operation keeps the canonical form. -/

namespace Sys2Proof.Machine.Memory

@[simp] theorem get?_nil (a : Nat) : get? [] a = none := rfl

theorem get?_cons (c : Host.Cell) (m : Memory) (a : Nat) :
    get? (c :: m) a = if c.1 = a then some c.2 else get? m a := rfl

@[simp] theorem get?_write_same (m : Memory) (a : Nat) (v : Byte) : get? (write m a v) a = some v := by
  induction m with
  | nil => simp [write, get?]
  | cons c m ih =>
    by_cases h1 : a < c.1
    · simp [write, h1, get?]
    · by_cases h2 : a = c.1
      · simp [write, h2, get?]
      · simp [write, h1, h2, get?, Ne.symm h2, ih]

theorem get?_write_ne (m : Memory) {a b : Nat} (v : Byte) (h : b ≠ a) : get? (write m a v) b = get? m b := by
  induction m with
  | nil => simp [write, get?, Ne.symm h]
  | cons c m ih =>
    by_cases h1 : a < c.1
    · simp [write, h1, get?, Ne.symm h]
    · by_cases h2 : a = c.1
      · subst h2
        simp [write, get?, Ne.symm h]
      · simp [write, h1, h2, get?, ih]

@[simp] theorem store_nil (m : Memory) : store m [] = m := rfl

@[simp] theorem store_cons (m : Memory) (c : Host.Cell) (cells : List Host.Cell) :
    store m (c :: cells) = write (store m cells) c.1 c.2 := rfl

/-- A store leaves every offset that it does not list. -/
theorem get?_store_of_not_mem (m : Memory) (cells : List Host.Cell) (a : Nat)
    (h : ∀ c ∈ cells, c.1 ≠ a) : get? (store m cells) a = get? m a := by
  induction cells with
  | nil => rfl
  | cons c cells ih =>
    have hc : a ≠ c.1 := Ne.symm (h c (by simp))
    rw [store_cons, get?_write_ne _ _ hc, ih fun d hd => h d (by simp [hd])]

/-- A store that lists an offset once leaves the listed byte there. -/
theorem get?_store_of_mem (m : Memory) (cells : List Host.Cell) (c : Host.Cell) (hc : c ∈ cells)
    (huniq : ∀ d ∈ cells, d.1 = c.1 → d.2 = c.2) : get? (store m cells) c.1 = some c.2 := by
  induction cells with
  | nil => simp at hc
  | cons d cells ih =>
    by_cases h : d.1 = c.1
    · rw [store_cons, h, get?_write_same, huniq d (by simp) h]
    · have hc' : c ∈ cells := by
        rcases List.mem_cons.mp hc with rfl | h'
        · exact absurd rfl h
        · exact h'
      rw [store_cons, get?_write_ne _ _ (Ne.symm h), ih hc' fun e he => huniq e (by simp [he])]

/-- Every entry of a rising list lies above the bound that its head lies above. -/
theorem rising_tail {c : Host.Cell} {m : Memory} (h : rising (c :: m) = true) : rising m = true := by
  cases m with
  | nil => rfl
  | cons d m => simp only [rising, Bool.and_eq_true] at h; exact h.2

theorem rising_cons {c : Host.Cell} {m : Memory} (hm : rising m = true) (h : ∀ d ∈ m, c.1 < d.1) :
    rising (c :: m) = true := by
  cases m with
  | nil => rfl
  | cons d m => simp only [rising, Bool.and_eq_true, decide_eq_true_eq]; exact ⟨h d (by simp), hm⟩

theorem lt_of_rising {c : Host.Cell} {m : Memory} (h : rising (c :: m) = true) : ∀ d ∈ m, c.1 < d.1 := by
  induction m generalizing c with
  | nil => simp
  | cons d m ih =>
    simp only [rising, Bool.and_eq_true, decide_eq_true_eq] at h
    intro e he
    rcases List.mem_cons.mp he with rfl | he'
    · exact h.1
    · exact Nat.lt_trans h.1 (ih h.2 e he')

theorem mem_write {m : Memory} {a : Nat} {v : Byte} {d : Host.Cell} (h : d ∈ write m a v) :
    d = (a, v) ∨ d ∈ m := by
  induction m with
  | nil => simpa [write] using h
  | cons c m ih =>
    by_cases h1 : a < c.1
    · simpa [write, h1] using h
    · by_cases h2 : a = c.1
      · rw [write, if_neg h1, if_pos h2] at h
        rcases List.mem_cons.mp h with h | h
        · exact .inl h
        · exact .inr (List.mem_cons_of_mem _ h)
      · rw [write, if_neg h1, if_neg h2, List.mem_cons] at h
        rw [List.mem_cons]
        rcases h with h | h
        · exact .inr (.inl h)
        · rcases ih h with h | h
          · exact .inl h
          · exact .inr (.inr h)

theorem rising_write (m : Memory) (a : Nat) (v : Byte) (h : rising m = true) : rising (write m a v) = true := by
  induction m with
  | nil => rfl
  | cons c m ih =>
    by_cases h1 : a < c.1
    · rw [write, if_pos h1]
      refine rising_cons h fun d hd => ?_
      rcases List.mem_cons.mp hd with rfl | hd'
      · exact h1
      · exact Nat.lt_trans h1 (lt_of_rising h d hd')
    · by_cases h2 : a = c.1
      · rw [write, if_neg h1, if_pos h2]
        exact rising_cons (rising_tail h) fun d hd => by simpa [h2] using lt_of_rising h d hd
      · rw [write, if_neg h1, if_neg h2]
        refine rising_cons (ih (rising_tail h)) fun d hd => ?_
        rcases mem_write hd with rfl | hd'
        · show c.1 < a
          omega
        · exact lt_of_rising h d hd'

theorem wf_iff (m : Memory) : wf m = true ↔ rising m = true ∧ ∀ c ∈ m, inBuffer c.1 = true := by
  simp [wf, List.all_eq_true]

@[simp] theorem wf_nil : wf [] = true := rfl

/-- A write to a buffer offset keeps the canonical form. -/
theorem wf_write {m : Memory} {a : Nat} {v : Byte} (h : wf m = true) (ha : inBuffer a = true) :
    wf (write m a v) = true := by
  rw [wf_iff] at h ⊢
  refine ⟨rising_write m a v h.1, fun c hc => ?_⟩
  rcases mem_write hc with rfl | hc'
  · exact ha
  · exact h.2 c hc'

/-- A store to buffer offsets keeps the canonical form. -/
theorem wf_store {m : Memory} {cells : List Host.Cell} (h : wf m = true)
    (hc : ∀ c ∈ cells, inBuffer c.1 = true) : wf (store m cells) = true := by
  induction cells with
  | nil => exact h
  | cons c cells ih =>
    rw [store_cons]
    exact wf_write (ih fun d hd => hc d (by simp [hd])) (hc c (by simp))

theorem inBuffer_iff (a : Nat) : inBuffer a = true ↔
    (0x1000 ≤ a ∧ a < 0x2000) ∨ (0x4000 ≤ a ∧ a < 0x6000) ∨ (0x8000 ≤ a ∧ a < 0xA000) := by
  simp [inBuffer, or_assoc]

theorem inBuffer_bankAddr {b r c : Nat} (hb : b < 4) (hr : r < 32) (hc : c < 32) :
    inBuffer (bankAddr b r c) = true := by
  rw [inBuffer_iff]; left; unfold bankAddr; omega

theorem inBuffer_dataAddr {i : Nat} (h : i < 8192) : inBuffer (dataAddr i) = true := by
  rw [inBuffer_iff]; right; left; unfold dataAddr; omega

theorem inBuffer_cwAddr {j r : Nat} (hj : j < 32) (hr : r < 256) : inBuffer (cwAddr j r) = true := by
  rw [inBuffer_iff]; right; right; unfold cwAddr; omega

theorem bankAddr_inj {b r c b' r' c' : Nat} (hr : r < 32) (hc : c < 32) (hr' : r' < 32) (hc' : c' < 32)
    (h : bankAddr b r c = bankAddr b' r' c') : b = b' ∧ r = r' ∧ c = c' := by
  unfold bankAddr at h; omega

theorem dataAddr_inj {i j : Nat} (h : dataAddr i = dataAddr j) : i = j := by
  unfold dataAddr at h; omega

theorem cwAddr_inj {j r j' r' : Nat} (hr : r < 256) (hr' : r' < 256) (h : cwAddr j r = cwAddr j' r') :
    j = j' ∧ r = r' := by
  unfold cwAddr at h; omega

end Sys2Proof.Machine.Memory
end

