-- ==== Sys2Proof/Laws/Ops.lean ====
section
/-! SUPPORT. One law for each shared operation: matrices and their cells, stores, the completion of a command, the operand checks. -/

namespace Sys2Proof.Machine

/-! ### Matrices -/

@[simp] theorem Mat.entry_build {n m i j : Nat} (f : Nat → Nat → Byte) (hi : i < n) (hj : j < m) :
    (Mat.build n m f).entry i j = f i j := by
  simp [Mat.build, Mat.entry, hi, hj]

theorem Mat.entry_genRows (P : Params) (T : Tables) (k : Nat) (rows : List Nat) {i c : Nat} (hi : i < rows.length)
    (hc : c < k) : (genRows P T k rows).entry i c = genEntry P T k rows[i] c := by
  simp [genRows, Mat.entry, hi, hc]

theorem matMul_entry (T : Tables) {n m p i j : Nat} (a b : Mat) (hi : i < n) (hj : j < p) :
    (matMul T n m p a b).entry i j = fsum ((List.range m).map fun t => fmul T (a.entry i t) (b.entry t j)) := by
  simp [matMul, hi, hj]

theorem mem_matCells {rows cols : Nat} {addr : Nat → Nat → Nat} {x : Mat} {c : Host.Cell} :
    c ∈ matCells rows cols addr x ↔ ∃ i j, i < rows ∧ j < cols ∧ c = (addr i j, x.entry i j) := by
  simp only [matCells, List.mem_flatMap, List.mem_range, List.mem_map]
  constructor
  · rintro ⟨i, hi, j, hj, rfl⟩; exact ⟨i, j, hi, hj, rfl⟩
  · rintro ⟨i, j, hi, hj, rfl⟩; exact ⟨i, hi, j, hj, rfl⟩

/-! Tables matter only through their products and quotients. -/

theorem matMul_congr {T U : Tables} (hm : ∀ a b, fmul T a b = fmul U a b) (n m p : Nat) (a b : Mat) :
    matMul T n m p a b = matMul U n m p a b := by
  simp only [matMul, hm]

theorem gaussJordan_congr {T U : Tables} (hm : ∀ a b, fmul T a b = fmul U a b) (hq : ∀ a b, fquot T a b = fquot U a b)
    (n todo col : Nat) (aug : Mat) : gaussJordan T n todo col aug = gaussJordan U n todo col aug := by
  induction todo generalizing col aug with
  | zero => rfl
  | succ todo ih =>
    simp only [gaussJordan]
    split
    · rfl
    · rw [ih]
      simp only [eliminate, hm, hq]

theorem matInv_congr {T U : Tables} (hm : ∀ a b, fmul T a b = fmul U a b) (hq : ∀ a b, fquot T a b = fquot U a b)
    (n : Nat) (a : Mat) : matInv T n a = matInv U n a := by
  simp only [matInv, gaussJordan_congr hm hq]

theorem fprod_congr {T U : Tables} (hm : ∀ a b, fmul T a b = fmul U a b) (l : List Byte) : fprod T l = fprod U l := by
  unfold fprod
  rw [show fmul T = fmul U from funext fun a => funext (hm a)]

/-- The generator matrix reads the points and the field operations, nothing else of the parameters. -/
theorem genRows_congr {T U : Tables} {P Q : Params} (hm : ∀ a b, fmul T a b = fmul U a b)
    (hq : ∀ a b, fquot T a b = fquot U a b) (he : P.evalPoints = Q.evalPoints) (k : Nat) (rows : List Nat) :
    genRows P T k rows = genRows Q U k rows := by
  have hp : evalPoint P = evalPoint Q := by funext j; simp [evalPoint, he]
  simp only [genRows, genEntry, lagrangeBasis, hq, fprod_congr hm, hp]

/-! ### Buffer bytes -/

theorem State.readByte_def (s : State) (a : Nat) :
    s.readByte a = (Memory.get? s.mem a).getD (Config.powerOnByte s.resets a) := rfl

/-- A byte's value depends on the memory and on the number of the last hardware reset only. -/
theorem State.readByte_congr {s t : State} (hm : t.mem = s.mem) (hr : t.resets = s.resets) (a : Nat) :
    t.readByte a = s.readByte a := by
  simp [State.readByte, hm, hr]

theorem State.readByte_storeBytes_of_not_mem (s : State) (cells : List Host.Cell) (a : Nat)
    (h : ∀ c ∈ cells, c.1 ≠ a) : (s.storeBytes cells).readByte a = s.readByte a := by
  simp [State.readByte, State.storeBytes, Memory.get?_store_of_not_mem _ _ _ h]

theorem State.readByte_storeBytes_of_mem (s : State) (cells : List Host.Cell) (c : Host.Cell) (hc : c ∈ cells)
    (huniq : ∀ d ∈ cells, d.1 = c.1 → d.2 = c.2) : (s.storeBytes cells).readByte c.1 = c.2 := by
  simp [State.readByte, State.storeBytes, Memory.get?_store_of_mem _ _ c hc huniq]

/-- A stored matrix reads back, where its addresses are distinct. -/
theorem State.readByte_store_matCells (s : State) {rows cols : Nat} {addr : Nat → Nat → Nat} (x : Mat)
    (hinj : ∀ i j i' j', i < rows → j < cols → i' < rows → j' < cols → addr i j = addr i' j' → i = i' ∧ j = j')
    {i j : Nat} (hi : i < rows) (hj : j < cols) :
    (s.storeBytes (matCells rows cols addr x)).readByte (addr i j) = x.entry i j := by
  refine State.readByte_storeBytes_of_mem s _ (addr i j, x.entry i j) (mem_matCells.mpr ⟨i, j, hi, hj, rfl⟩) ?_
  intro d hd h
  obtain ⟨i', j', hi', hj', rfl⟩ := mem_matCells.mp hd
  obtain ⟨rfl, rfl⟩ := hinj i' j' i j hi' hj' hi hj h
  rfl

/-- A stored matrix leaves every other byte. -/
theorem State.readByte_store_matCells_of_ne (s : State) {rows cols : Nat} {addr : Nat → Nat → Nat} (x : Mat) {a : Nat}
    (h : ∀ i j, i < rows → j < cols → a ≠ addr i j) :
    (s.storeBytes (matCells rows cols addr x)).readByte a = s.readByte a := by
  refine State.readByte_storeBytes_of_not_mem s _ a fun c hc => ?_
  obtain ⟨i, j, hi, hj, rfl⟩ := mem_matCells.mp hc
  exact (h i j hi hj).symm

@[simp] theorem State.storeBytes_nil (s : State) : s.storeBytes [] = s := rfl

/-- A store changes the memory and no other field. -/
theorem State.storeBytes_eq (s : State) (cells : List Host.Cell) :
    s.storeBytes cells = { s with mem := Memory.store s.mem cells } := rfl

/-! ### Completion -/

@[simp] theorem CmdResult.code_ok (e : Effect) : (CmdResult.ok e).code = 0x00#8 := rfl

@[simp] theorem CmdResult.code_err (k : ErrorKind) : (CmdResult.err k).code = k.code := rfl

theorem ErrorKind.code_ne_zero (k : ErrorKind) : k.code ≠ 0x00#8 := by cases k <;> decide

/-- All that a completion does: the result's destination writes, then ERRCODE, DONE, ERROR and the phase. -/
theorem complete_eq (r : CmdResult) (s : State) :
    complete r s = { r.apply s with
      errcode := r.code, done := true, error := (r.apply s).error || decide (r.code ≠ 0x00#8), phase := .idle } := rfl

/-- A failed command changes ERRCODE, DONE, ERROR and the phase only (60_exceptions.md R153). -/
theorem complete_err (k : ErrorKind) (s : State) :
    complete (.err k) s = { s with errcode := k.code, done := true, error := true, phase := .idle } := by
  simp [complete_eq, CmdResult.apply, ErrorKind.code_ne_zero]

/-- A successful command leaves its effect, ERRCODE = 0, DONE = 1, ERROR as it was, and phase IDLE. -/
theorem complete_ok (e : Effect) (s : State) :
    complete (.ok e) s = { applyEffect e s with
      errcode := 0x00#8, done := true, error := (applyEffect e s).error, phase := .idle } := by
  simp [complete_eq, CmdResult.apply]

/-- What each kind of effect writes (60_exceptions.md R152). -/
theorem applyEffect_result (r : Byte) (s : State) : applyEffect (.result r) s = { s with result := r } := rfl

theorem applyEffect_matrix (d : BankId) (sh : Shape) (cells : List Host.Cell) (s : State) :
    applyEffect (.matrix d sh cells) s = ({ s with mem := Memory.store s.mem cells }).setMdim d sh := rfl

theorem applyEffect_codeword (cells : List Host.Cell) (v : Word) (rc : BitVec 16) (s : State) :
    applyEffect (.codeword cells v rc) s = { s with mem := Memory.store s.mem cells, valid := v, rowCount := rc } := rfl

theorem applyEffect_data (cells : List Host.Cell) (rc : BitVec 16) (s : State) :
    applyEffect (.data cells rc) s = { s with mem := Memory.store s.mem cells, rowCount := rc } := rfl

/-- The memory after a completion is the memory before it with the result's bytes stored. -/
theorem applyEffect_mem (e : Effect) (s : State) : (applyEffect e s).mem = Memory.store s.mem e.stores := by
  cases e <;> rfl

theorem applyEffect_resets (e : Effect) (s : State) : (applyEffect e s).resets = s.resets := by
  cases e <;> rfl

/-! ### Operand checks -/

theorem bankOf_eq_some {f : BankField} {b : BankId} : bankOf f = some b ↔ f.toNat = b.val := by
  unfold bankOf
  split
  · simp [Fin.ext_iff]
  · rename_i h
    simp only [reduceCtorEq, false_iff]
    intro h'
    exact h (h' ▸ b.isLt)

theorem bankOf_eq_none {f : BankField} : bankOf f = none ↔ 4 ≤ f.toNat := by
  unfold bankOf
  split <;> simp <;> omega

theorem Shape.valid_iff (sh : Shape) : sh.valid = true ↔
    1 ≤ sh.rows.toNat ∧ sh.rows.toNat ≤ 32 ∧ 1 ≤ sh.cols.toNat ∧ sh.cols.toNat ≤ 32 := by
  simp only [Shape.valid, Bool.and_eq_true, decide_eq_true_eq, and_assoc]
  rfl

theorem State.kmOk_iff (s : State) : s.kmOk = true ↔ 1 ≤ s.k ∧ s.k + s.m ≤ 32 := by
  simp only [State.kmOk, Bool.and_eq_true, decide_eq_true_eq]
  rfl

theorem State.streamOk_iff (s : State) :
    s.streamOk = true ↔ (1 ≤ s.k ∧ s.k + s.m ≤ 32) ∧ s.len ≤ s.k * 256 := by
  simp only [State.streamOk, Bool.and_eq_true, decide_eq_true_eq, State.kmOk_iff]
  rfl

/-- row_count is at most ROW_MAX when the stream check passes (42_reed_solomon.md R131). -/
theorem State.rc_le (s : State) (h : s.streamOk = true) : s.rc ≤ 256 := by
  obtain ⟨⟨hk, -⟩, hl⟩ := s.streamOk_iff.mp h
  unfold State.rc
  rw [Nat.div_le_iff_le_mul_add_pred (by omega)]
  have := Nat.mul_comm s.k 256
  omega

/-- Every data position lies below rc in its column (42_reed_solomon.md R131). -/
theorem State.div_lt_rc (s : State) (hk : 1 ≤ s.k) {p : Nat} (hp : p < s.len) : p / s.k < s.rc := by
  unfold State.rc
  rw [Nat.div_lt_iff_lt_mul (by omega)]
  have h := Nat.div_add_mod (s.len + s.k - 1) s.k
  have hm : (s.len + s.k - 1) % s.k < s.k := Nat.mod_lt _ (by omega)
  rw [Nat.mul_comm] at h
  omega

end Sys2Proof.Machine
end

