-- ==== Sys2Proof/Laws/Exec.lean ====
section
/-! SUPPORT. What exec and step can do, said once: exec is the completion of the command's result, results store to buffer bytes only, and the inversion of step. -/

namespace Sys2Proof.Machine

/-- Every command's meaning is the completion of its result (60_exceptions.md R152). -/
theorem exec_eq (i : Instr) (s : State) : exec i s = .next (complete (instrResult i s) s) := by
  cases i <;> rfl

/-- The completion of any word, legal or not. -/
theorem engineTurn_exec (s : State) (h : s.phase = .exec) :
    engineTurn s = .next (complete (commandResult s.cmd s) s) := by
  unfold engineTurn commandResult
  rw [h]
  cases decode s.cmd with
  | legal i => exact exec_eq i s
  | illegal _ => rfl

theorem engineTurn_init (s : State) (h : s.phase = .init) : engineTurn s = .next (initDone s) := by
  unfold engineTurn; rw [h]

theorem engineTurn_idle (s : State) (h : s.phase = .idle) : engineTurn s = .next s := by
  unfold engineTurn; rw [h]

@[simp] theorem State.busy_iff (s : State) : s.busy = true ↔ s.phase ≠ .idle := by simp [State.busy]

@[simp] theorem State.ready_iff (s : State) : s.ready = true ↔ s.phase ≠ .init := by simp [State.ready]

/-- What the step is, by the head of the schedule. -/
theorem step_host {s : State} {rest : List Turn} (h : s.sched = .host :: rest) :
    step s = .next (s.setSched rest).hostTurn := by unfold step; rw [h]

theorem step_engine {s : State} {rest : List Turn} (h : s.sched = .engine :: rest) :
    step s = engineTurn (s.setSched rest) := by unfold step; rw [h]

theorem step_hardReset {s : State} {rest : List Turn} (h : s.sched = .hardReset :: rest) :
    step s = .next (hardwareReset (s.setSched rest)) := by unfold step; rw [h]

theorem step_busy {s : State} (h : s.sched = []) (hp : s.phase ≠ .idle) : step s = engineTurn s := by
  unfold step; rw [h]; simp [hp]

theorem step_idle {s : State} (h : s.sched = []) (hp : s.phase = .idle) : step s = .next s.hostTurn := by
  unfold step; rw [h]; simp [State.busy, hp]

/-- Popping the turn of an empty schedule changes nothing. -/
theorem popTurn_of_nil {s : State} (h : s.sched = []) : popTurn s = s := by
  cases s
  cases h
  rfl

theorem popTurn_of_cons {s : State} {turn : Turn} {rest : List Turn} (h : s.sched = turn :: rest) :
    popTurn s = s.setSched rest := by
  unfold popTurn
  rw [h]
  rfl

/-- At the host's turn the step is the host's, on the state with the turn taken off. -/
theorem step_of_hostNext {s : State} (h : hostNext s) : step s = .next (popTurn s).hostTurn := by
  rcases h with ⟨rest, h⟩ | ⟨h, hp⟩
  · rw [step_host h, popTurn_of_cons h]
  · rw [step_idle h hp, popTurn_of_nil h]

/-- At the engine's turn the step is the engine's, on the state with the turn taken off. -/
theorem step_of_engineNext {s : State} (h : engineNext s) : step s = engineTurn (popTurn s) := by
  rcases h with ⟨rest, h⟩ | ⟨h, hp⟩
  · rw [step_engine h, popTurn_of_cons h]
  · rw [step_busy h hp, popTurn_of_nil h]

/-! The host's turn, by the head of its list. -/

theorem State.hostTurn_nil {s : State} (h : s.host = []) : s.hostTurn = s := by
  unfold State.hostTurn; rw [h]

theorem State.hostTurn_read {s : State} {a : Addr} {rest : List HostOp} (h : s.host = .read a :: rest) :
    s.hostTurn = (s.setHost rest).hostRead a := by
  unfold State.hostTurn; rw [h]

theorem State.hostTurn_write {s : State} {a : Addr} {w : Word} {rest : List HostOp} (h : s.host = .write a w :: rest) :
    s.hostTurn = (s.setHost rest).hostWrite a w := by
  unfold State.hostTurn; rw [h]

theorem State.hostTurn_wait {s : State} {rest : List HostOp} (h : s.host = .wait :: rest) :
    s.hostTurn = (if s.busy then s else s.setHost rest).hostRead (regOffset .status) := by
  unfold State.hostTurn; rw [h]

theorem State.hostTurn_waitReady {s : State} {rest : List HostOp} (h : s.host = .waitReady :: rest) :
    s.hostTurn = (if s.ready && !s.busy then s.setHost rest else s).hostRead (regOffset .status) := by
  unfold State.hostTurn; rw [h]

theorem State.statusWord_ready (s : State) : s.statusWord.getLsbD 0 = s.ready := by
  unfold State.statusWord
  rw [BitVec.getLsbD_setWidth, BitVec.getLsbD_append]
  simp

theorem State.statusWord_busy (s : State) : s.statusWord.getLsbD 1 = s.busy := by
  unfold State.statusWord
  rw [BitVec.getLsbD_setWidth, BitVec.getLsbD_append, BitVec.getLsbD_append]
  simp

/-- One step: from the state with its turn taken off the schedule, one of the four events. -/
theorem step_cases {s t : State} (h : step s = .next t) :
    let u := popTurn s
    (t = u.hostTurn) ∨ (u.phase = .init ∧ t = initDone u) ∨ (u.phase = .idle ∧ t = u) ∨
    (u.phase = .exec ∧ t = complete (commandResult u.cmd u) u) ∨ t = hardwareReset u := by
  intro u
  have hu : u = s.setSched s.sched.tail := rfl
  rcases hs : s.sched with _ | ⟨turn, rest⟩
  · have hus : u = s := by
      rw [hu, hs]
      cases s
      cases hs
      rfl
    rw [hus]
    by_cases hp : s.phase = .idle
    · rw [step_idle hs hp] at h; cases h; exact .inl rfl
    · rw [step_busy hs hp] at h
      rcases hph : s.phase with _ | _ | _
      · rw [engineTurn_init s hph] at h; cases h; exact .inr (.inl ⟨rfl, rfl⟩)
      · exact absurd hph hp
      · rw [engineTurn_exec s hph] at h; cases h; exact .inr (.inr (.inr (.inl ⟨rfl, rfl⟩)))
  · have hus : s.setSched rest = u := by rw [hu, hs]; rfl
    cases turn with
    | host => rw [step_host hs, hus] at h; cases h; exact .inl rfl
    | hardReset => rw [step_hardReset hs, hus] at h; cases h; exact .inr (.inr (.inr (.inr rfl)))
    | engine =>
      rw [step_engine hs, hus] at h
      rcases hph : u.phase with _ | _ | _
      · rw [engineTurn_init u hph] at h; cases h; exact .inr (.inl ⟨rfl, rfl⟩)
      · rw [engineTurn_idle u hph] at h; injection h with h; exact .inr (.inr (.inl ⟨rfl, h.symm⟩))
      · rw [engineTurn_exec u hph] at h; cases h; exact .inr (.inr (.inr (.inl ⟨rfl, rfl⟩)))

theorem run_succ_of_step (M : Host.Core) {s u : M.State} (h : M.step s = .next u) (n : Nat) :
    M.run (n + 1) s = M.run n u := by
  simp only [Host.Core.run, h]

/-- A run goes on from the state its first step answers. -/
theorem core_run_succ {s u : State} (h : step s = .next u) (n : Nat) :
    Sys2Proof.core.run (n + 1) s = Sys2Proof.core.run n u := run_succ_of_step Sys2Proof.core h n

/-! ### Results -/

theorem mmulResult_ok {d a b : BankField} {s : State} {e : Effect} (h : mmulResult d a b s = .ok e) :
    ∃ d' a' b' : BankId, bankOf d = some d' ∧ bankOf a = some a' ∧ bankOf b = some b' ∧
      (s.mdim a').valid = true ∧ (s.mdim b').valid = true ∧ (s.mdim a').cols = (s.mdim b').rows ∧
      e = bankEffect d' (s.mdim a').rows.toNat (s.mdim b').cols.toNat
        (matMul (tables s.params) (s.mdim a').rows.toNat (s.mdim a').cols.toNat (s.mdim b').cols.toNat
          (s.matOf a') (s.matOf b')) := by
  unfold mmulResult at h
  split at h
  · rename_i d' a' b' hd ha hb
    unfold mmulBanks at h
    simp only at h
    split at h
    · rename_i hv
      simp only [Bool.and_eq_true] at hv
      split at h
      · rename_i hc
        cases h
        exact ⟨d', a', b', hd, ha, hb, hv.1, hv.2, hc, rfl⟩
      · cases h
    · cases h
  · cases h

theorem minvResult_ok {d a : BankField} {s : State} {e : Effect} (h : minvResult d a s = .ok e) :
    ∃ (d' a' : BankId) (x : Mat), bankOf d = some d' ∧ bankOf a = some a' ∧
      (s.mdim a').valid = true ∧ (s.mdim a').rows = (s.mdim a').cols ∧
      matInv (tables s.params) (s.mdim a').rows.toNat (s.matOf a') = some x ∧
      e = bankEffect d' (s.mdim a').rows.toNat (s.mdim a').rows.toNat x := by
  unfold minvResult at h
  split at h
  · rename_i d' a' hd ha
    unfold minvBanks at h
    simp only at h
    split at h
    · rename_i hv
      split at h
      · rename_i hc
        split at h
        · rename_i x hx
          cases h
          exact ⟨d', a', x, hd, ha, hv, hc, hx, rfl⟩
        · cases h
      · cases h
    · cases h
  · cases h

theorem genmatResult_ok {d : BankField} {s : State} {e : Effect} (h : genmatResult d s = .ok e) :
    ∃ d' : BankId, bankOf d = some d' ∧ s.kmOk = true ∧
      e = bankEffect d' s.total s.k (genRows s.params (tables s.params) s.k (List.range s.total)) := by
  unfold genmatResult at h
  split at h
  · rename_i d' hd
    unfold genmatBank at h
    split at h
    · rename_i hk
      cases h
      exact ⟨d', hd, hk, rfl⟩
    · cases h
  · cases h

theorem encodeResult_ok {s : State} {e : Effect} (h : encodeResult s = .ok e) :
    s.streamOk = true ∧
      e = .codeword (matCells s.total s.rc cwAddr (codewordColumns s)) (allValid s.total) (BitVec.ofNat 16 s.rc) := by
  unfold encodeResult at h
  split at h
  · rename_i hk
    cases h
    exact ⟨hk, rfl⟩
  · cases h

theorem decodeResult_ok {s : State} {e : Effect} (h : decodeResult s = .ok e) :
    s.streamOk = true ∧ s.k ≤ s.validColumns.length ∧
      ∃ x, matInv (tables s.params) s.k (selectedRows s) = some x ∧
        e = .data (dataCells s (recoveredColumns s x)) (BitVec.ofNat 16 s.rc) := by
  unfold decodeResult at h
  split at h
  · rename_i hk
    split at h
    · cases h
    · rename_i hv
      split at h
      · rename_i x hx
        cases h
        exact ⟨hk, by omega, x, hx, rfl⟩
      · cases h
  · cases h

/-- A matrix effect stores inside its bank's window. -/
theorem bankEffect_inBuffer {d : BankId} {rows cols : Nat} {x : Mat} (hr : rows ≤ 32) (hc : cols ≤ 32) :
    ∀ c ∈ (bankEffect d rows cols x).stores, Memory.inBuffer c.1 = true := by
  intro c hcell
  obtain ⟨i, j, hi, hj, rfl⟩ := mem_matCells.mp hcell
  exact Memory.inBuffer_bankAddr d.isLt (by omega) (by omega)

/-- Every command stores to buffer offsets only, and a row_count it writes is at most ROW_MAX. -/
theorem instrResult_stores_inBuffer {i : Instr} {s : State} {e : Effect} (h : instrResult i s = .ok e) :
    ∀ c ∈ e.stores, Memory.inBuffer c.1 = true := by
  cases i with
  | fadd => cases h; simp [Effect.stores]
  | fmul => cases h; simp [Effect.stores]
  | fmulx => cases h; simp [Effect.stores]
  | fdiv =>
    simp only [instrResult, fdivResult, resultOr] at h
    split at h <;> cases h
    simp [Effect.stores]
  | finv =>
    simp only [instrResult, finvResult, resultOr] at h
    split at h <;> cases h
    simp [Effect.stores]
  | mmul d a b =>
    obtain ⟨d', a', b', -, -, -, ha, hb, -, rfl⟩ := mmulResult_ok h
    exact bankEffect_inBuffer ((Shape.valid_iff _).mp ha).2.1 ((Shape.valid_iff _).mp hb).2.2.2
  | minv d a =>
    obtain ⟨d', a', x, -, -, ha, -, -, rfl⟩ := minvResult_ok h
    exact bankEffect_inBuffer ((Shape.valid_iff _).mp ha).2.1 ((Shape.valid_iff _).mp ha).2.1
  | genmat d =>
    obtain ⟨d', -, hk, rfl⟩ := genmatResult_ok h
    have := s.kmOk_iff.mp hk
    exact bankEffect_inBuffer (by show s.k + s.m ≤ 32; omega) (by omega)
  | encode =>
    obtain ⟨hk, rfl⟩ := encodeResult_ok h
    intro c hc
    obtain ⟨j, r, hj, hr, rfl⟩ := mem_matCells.mp hc
    have h1 := (s.streamOk_iff.mp hk).1.2
    have h2 := s.rc_le hk
    exact Memory.inBuffer_cwAddr (by unfold State.total at hj; omega) (by omega)
  | decode =>
    obtain ⟨hk, -, x, -, rfl⟩ := decodeResult_ok h
    intro c hc
    simp only [Effect.stores, dataCells, List.mem_map, List.mem_range] at hc
    obtain ⟨p, hp, rfl⟩ := hc
    have h1 := s.streamOk_iff.mp hk
    exact Memory.inBuffer_dataAddr (by omega)

/-- Completion keeps the canonical form of the memory. -/
theorem wf_complete_instrResult (i : Instr) (s : State) (h : Memory.wf s.mem = true) :
    Memory.wf (complete (instrResult i s) s).mem = true := by
  cases hr : instrResult i s with
  | ok e =>
    rw [complete_ok]
    show Memory.wf (applyEffect e s).mem = true
    rw [applyEffect_mem]
    exact Memory.wf_store h (instrResult_stores_inBuffer hr)
  | err k => rw [complete_err]; exact h

theorem freshCells_inBuffer (cells : List Host.Cell) (n : Nat) (h : ∀ c ∈ cells, Memory.inBuffer c.1 = true) :
    ∀ c ∈ freshCells n cells, Memory.inBuffer c.1 = true := by
  induction cells generalizing n with
  | nil => simp [freshCells]
  | cons c cells ih =>
    intro d hd
    rcases List.mem_cons.mp hd with rfl | hd'
    · exact h c (by simp)
    · exact ih (n + 1) (fun e he => h e (by simp [he])) d hd'

theorem commandResult_stores_inBuffer (w : Word) (s : State) :
    ∀ c ∈ (commandResult w s).stores, Memory.inBuffer c.1 = true := by
  unfold commandResult
  cases decode w with
  | illegal _ => simp [CmdResult.stores]
  | legal i =>
    simp only
    cases hr : instrResult i s with
    | err k => simp [CmdResult.stores]
    | ok e => exact instrResult_stores_inBuffer hr

theorem wf_abort (s : State) (h : Memory.wf s.mem = true) : Memory.wf s.abort.mem = true := by
  unfold State.abort
  split
  · exact Memory.wf_store h (freshCells_inBuffer _ _ (commandResult_stores_inBuffer _ _))
  · exact h

/-- A buffer word write keeps the canonical form. -/
theorem wf_writeBufferWord (s : State) {addr : Addr} {a : Nat} (v : Word) (ht : target addr = some (.buffer a))
    (h : Memory.wf s.mem = true) : Memory.wf (s.writeBufferWord a v).mem = true := by
  unfold target at ht
  simp only at ht
  split at ht
  · cases ht
  · rename_i hal
    split at ht
    · rename_i hb
      cases ht
      rw [Memory.inBuffer_iff] at hb
      refine Memory.wf_store h fun c hc => ?_
      simp only [State.wordCells, List.mem_cons, List.not_mem_nil, or_false] at hc
      rw [Memory.inBuffer_iff]
      rcases hc with rfl | rfl | rfl | rfl <;> simp only <;> omega
    · simp only [Option.map_eq_some_iff] at ht
      obtain ⟨r, -, h'⟩ := ht
      cases h'

/-! ### The host port -/

theorem target_regOffset (r : Reg) : target (regOffset r) = some (.reg r) := by
  cases r with
  | mdim b => fin_cases b <;> rfl
  | _ => rfl

/-- An offset that names a register is that register's offset. -/
theorem eq_regOffset_of_target {a : Addr} {r : Reg} (h : target a = some (.reg r)) : a = regOffset r := by
  unfold target at h
  simp only at h
  split at h
  · cases h
  split at h
  · cases h
  · simp only [Option.map_eq_some_iff] at h
    obtain ⟨r', h, h'⟩ := h
    cases h'
    unfold regAt at h
    split at h <;> cases h <;> (apply BitVec.eq_of_toNat_eq; rename_i hh; rw [hh]; rfl)

/-- A buffer target is an aligned offset of a buffer window. -/
theorem target_buffer {a : Addr} (hal : a.toNat % 4 = 0) (hb : Memory.inBuffer a.toNat = true) :
    target a = some (.buffer a.toNat) := by
  simp [target, hal, hb]

/-- All a read can change: the response and the number of draws. -/
theorem State.hostRead_frame (s : State) (a : Addr) : ∃ r n, s.hostRead a = { s with resp := r, draws := n } := by
  unfold State.hostRead
  split
  · exact ⟨_, s.draws, rfl⟩
  · split
    · exact ⟨_, _, rfl⟩
    · exact ⟨_, s.draws, rfl⟩

@[simp] theorem State.irq_hostRead (s : State) (a : Addr) : (s.hostRead a).irq = s.irq := by
  obtain ⟨r, n, h⟩ := s.hostRead_frame a
  rw [h]; rfl

/-- Where a register write goes in phase IDLE. -/
theorem State.hostWrite_idle {s : State} {r : Reg} (w : Word) (hp : s.phase = .idle) (hc : r ≠ .ctrl) (hs : r ≠ .status) :
    s.hostWrite (regOffset r) w = (s.writeIdleReg r w).setResp (some (.write false)) := by
  unfold State.hostWrite
  rw [target_regOffset]
  cases r <;> first | exact absurd rfl hc | exact absurd rfl hs | simp [State.writeTarget, hp]

/-- The inputs of the commands: states that agree on them give every command word the same result
(10_state.md R41). -/
theorem commandResult_congr {s t : State} (hp : t.params = s.params) (ha : t.opa = s.opa) (hb : t.opb = s.opb)
    (hl : t.origLen = s.origLen) (hk : t.dataChunks = s.dataChunks) (hm : t.codeChunks = s.codeChunks)
    (hv : t.valid = s.valid) (h0 : t.mdim0 = s.mdim0) (h1 : t.mdim1 = s.mdim1) (h2 : t.mdim2 = s.mdim2)
    (h3 : t.mdim3 = s.mdim3) (hmem : t.mem = s.mem) (hr : t.resets = s.resets) (w : Word) :
    commandResult w t = commandResult w s := by
  cases s
  cases t
  simp only at *
  subst_vars
  rfl

/-- All an abort can change: buffer bytes and the number of draws. -/
theorem State.abort_frame (s : State) : ∃ m n, s.abort = { s with mem := m, draws := n } := by
  unfold State.abort
  split
  · exact ⟨_, _, rfl⟩
  · exact ⟨s.mem, s.draws, rfl⟩

/-- The register part of a reset leaves every register at its reset value (70_reset_and_hazards.md R180). -/
theorem registersAtReset_resetRegisters (s : State) : registersAtReset (resetRegisters s) := by
  refine ⟨rfl, rfl, rfl, rfl, rfl, rfl, rfl, rfl, rfl, rfl, rfl, rfl, fun b => ?_⟩
  fin_cases b <;> rfl

/-! ### What results say -/

/-- A legal bank field names a bank. -/
theorem bankOf_of_legal {f : BankField} (h : f.legal = true) : ∃ b : BankId, bankOf f = some b ∧ f.toNat = b.val := by
  have hf : f.toNat < 4 := of_decide_eq_true h
  exact ⟨⟨f.toNat, hf⟩, bankOf_eq_some.mpr rfl, rfl⟩

/-- Every byte a command stores lies in its destination (70_reset_and_hazards.md R183). -/
theorem instrResult_stores_destination {i : Instr} {s : State} {e : Effect} (h : instrResult i s = .ok e) :
    ∀ c ∈ e.stores, destination i s c.1 := by
  have hro : ∀ o, resultOr o = .ok e → ∀ c ∈ e.stores, destination i s c.1 := by
    intro o h
    cases o <;> cases h
    simp [Effect.stores]
  intro c hc
  cases i with
  | fadd => cases h; simp [Effect.stores] at hc
  | fmul => cases h; simp [Effect.stores] at hc
  | fmulx => cases h; simp [Effect.stores] at hc
  | fdiv => exact hro _ h c hc
  | finv => exact hro _ h c hc
  | mmul d a b =>
    obtain ⟨d', a', b', hd, ha, hb, -, -, -, rfl⟩ := mmulResult_ok h
    obtain ⟨r, q, hr, hq, rfl⟩ := mem_matCells.mp hc
    exact ⟨a', b', ha, hb, r, q, hr, hq, by rw [bankOf_eq_some.mp hd]⟩
  | minv d a =>
    obtain ⟨d', a', x, hd, ha, -, -, -, rfl⟩ := minvResult_ok h
    obtain ⟨r, q, hr, hq, rfl⟩ := mem_matCells.mp hc
    exact ⟨a', ha, r, q, hr, hq, by rw [bankOf_eq_some.mp hd]⟩
  | genmat d =>
    obtain ⟨d', hd, hk, rfl⟩ := genmatResult_ok h
    obtain ⟨r, q, hr, hq, rfl⟩ := mem_matCells.mp hc
    exact ⟨r, q, hr, hq, by rw [bankOf_eq_some.mp hd]⟩
  | encode =>
    obtain ⟨hk, rfl⟩ := encodeResult_ok h
    obtain ⟨j, r, hj, hr, rfl⟩ := mem_matCells.mp hc
    exact ⟨j, r, hj, hr, rfl⟩
  | decode =>
    obtain ⟨hk, -, x, -, rfl⟩ := decodeResult_ok h
    simp only [Effect.stores, dataCells, List.mem_map, List.mem_range] at hc
    obtain ⟨p, hp, rfl⟩ := hc
    exact ⟨p, hp, rfl⟩

/-- No effect raises ROW_COUNT above ROW_MAX (10_state.md R32). -/
theorem rowCount_applyEffect_le {i : Instr} {s : State} {e : Effect} (hs : s.rowCount.toNat ≤ Config.rowMax)
    (h : instrResult i s = .ok e) : (applyEffect e s).rowCount.toNat ≤ Config.rowMax := by
  have hrc : s.streamOk = true → (BitVec.ofNat 16 s.rc).toNat ≤ Config.rowMax := by
    intro h
    have := s.rc_le h
    rw [BitVec.toNat_ofNat, Nat.mod_eq_of_lt (by omega)]
    exact this
  have hro : ∀ o, resultOr o = .ok e → (applyEffect e s).rowCount.toNat ≤ Config.rowMax := by
    intro o h
    cases o <;> cases h
    exact hs
  cases i with
  | fadd => cases h; exact hs
  | fmul => cases h; exact hs
  | fmulx => cases h; exact hs
  | fdiv => exact hro _ h
  | finv => exact hro _ h
  | mmul d a b => obtain ⟨_, _, _, _, _, _, _, _, _, rfl⟩ := mmulResult_ok h; exact hs
  | minv d a => obtain ⟨_, _, _, _, _, _, _, _, rfl⟩ := minvResult_ok h; exact hs
  | genmat d => obtain ⟨_, _, _, rfl⟩ := genmatResult_ok h; exact hs
  | encode => obtain ⟨h1, rfl⟩ := encodeResult_ok h; rw [applyEffect_codeword]; exact hrc h1
  | decode => obtain ⟨h1, _, _, _, rfl⟩ := decodeResult_ok h; rw [applyEffect_data]; exact hrc h1

/-- No command raises the reserved code UNKNOWN_WORD (60_exceptions.md R150). -/
theorem instrResult_err_ne_unknownWord {i : Instr} {s : State} {k : ErrorKind} (h : instrResult i s = .err k) :
    k ≠ .unknownWord := by
  have hro : ∀ o, resultOr o = .err k → k ≠ .unknownWord := by
    intro o h
    cases o <;> cases h
    decide
  rintro rfl
  cases i with
  | fadd => cases h
  | fmul => cases h
  | fmulx => cases h
  | fdiv => exact hro _ h rfl
  | finv => exact hro _ h rfl
  | mmul d a b =>
    simp only [instrResult, mmulResult, mmulBanks] at h
    repeat' split at h
    all_goals simp at h
  | minv d a =>
    simp only [instrResult, minvResult, minvBanks] at h
    repeat' split at h
    all_goals simp at h
  | genmat d =>
    simp only [instrResult, genmatResult, genmatBank] at h
    repeat' split at h
    all_goals simp at h
  | encode =>
    simp only [instrResult, encodeResult] at h
    repeat' split at h
    all_goals simp at h
  | decode =>
    simp only [instrResult, decodeResult] at h
    repeat' split at h
    all_goals simp at h

end Sys2Proof.Machine
end

