-- ==== Sys2Proof/Laws/PerInstr.lean ====
section
/-! SUPPORT. Statements about every instruction as syntax, one lemma for each constructor. -/

namespace Sys2Proof.Laws.OpcodeInPlace

/-- The encoder puts the command's opcode in bits 7:0 and 0 in bits 31:20 (30_encoding.md R70). -/
def Statement (i : Instr) : Prop := opField (encode i) = opcode i ∧ rsvField (encode i) = 0#12

theorem cmdw_op (b a d : BankField) (op : Byte) : opField (cmdw b a d op) = op ∧ rsvField (cmdw b a d op) = 0#12 := by
  constructor
  · apply BitVec.eq_of_getLsbD_eq
    intro i hi
    simp only [opField, cmdw, BitVec.getLsbD_extractLsb', BitVec.getLsbD_append, Nat.zero_add]
    simp [hi]
  · apply BitVec.eq_of_getLsbD_eq
    intro i hi
    simp only [rsvField, cmdw, BitVec.getLsbD_extractLsb', BitVec.getLsbD_append]
    rw [if_neg (by omega), if_neg (by omega), if_neg (by omega), if_neg (by omega)]
    simp

theorem fadd : Statement .fadd := cmdw_op _ _ _ _
theorem fmul : Statement .fmul := cmdw_op _ _ _ _
theorem fdiv : Statement .fdiv := cmdw_op _ _ _ _
theorem finv : Statement .finv := cmdw_op _ _ _ _
theorem fmulx : Statement .fmulx := cmdw_op _ _ _ _
theorem mmul (d a b : BankField) : Statement (.mmul d a b) := cmdw_op _ _ _ _
theorem minv (d a : BankField) : Statement (.minv d a) := cmdw_op _ _ _ _
theorem genmat (d : BankField) : Statement (.genmat d) := cmdw_op _ _ _ _
theorem encode : Statement .encode := cmdw_op _ _ _ _
theorem decode : Statement .decode := cmdw_op _ _ _ _

end Sys2Proof.Laws.OpcodeInPlace
end

