-- ==== Sys2Proof/Tests/Slice0.lean ====
section
/-! SUPPORT. The model's own tests: ill-formed commands, words written out from the encodings, one-step vectors of 95_test_vectors.md, and a witness for the hypotheses of every obligation that has some. -/

namespace Sys2Proof.Tests

open Sys2Proof.Machine

/-! ### Well-formedness: each check refuses an ill-formed command (30_encoding.md R71) -/

theorem test_wf_mmul_d : (Instr.mmul 4#4 0#4 0#4).WellFormed = false := by decide
theorem test_wf_mmul_a : (Instr.mmul 0#4 4#4 0#4).WellFormed = false := by decide
theorem test_wf_mmul_b : (Instr.mmul 0#4 0#4 15#4).WellFormed = false := by decide
theorem test_wf_minv_d : (Instr.minv 8#4 0#4).WellFormed = false := by decide
theorem test_wf_minv_a : (Instr.minv 0#4 4#4).WellFormed = false := by decide
theorem test_wf_genmat_d : (Instr.genmat 4#4).WellFormed = false := by decide
theorem test_wf_legal : (Instr.mmul 3#4 3#4 3#4).WellFormed = true := by decide

/-! ### Decoding: words written out from the fields RSV, B, A, D, OP of 30_encoding.md R70 and the opcodes of R75 -/

theorem test_decode_fadd : decode 0b000000000000_0000_0000_0000_00000001#32 = .legal .fadd := by decide
theorem test_decode_fmul : decode 0b000000000000_0000_0000_0000_00000010#32 = .legal .fmul := by decide
theorem test_decode_fdiv : decode 0b000000000000_0000_0000_0000_00000011#32 = .legal .fdiv := by decide
theorem test_decode_finv : decode 0b000000000000_0000_0000_0000_00000100#32 = .legal .finv := by decide
theorem test_decode_fmulx : decode 0b000000000000_0000_0000_0000_00000101#32 = .legal .fmulx := by decide
theorem test_decode_mmul : decode 0b000000000000_0001_0000_0010_00010000#32 = .legal (.mmul 2#4 0#4 1#4) := by decide
theorem test_decode_minv : decode 0b000000000000_0000_0010_0001_00010001#32 = .legal (.minv 1#4 2#4) := by decide
theorem test_decode_genmat : decode 0b000000000000_0000_0000_0011_00010010#32 = .legal (.genmat 3#4) := by decide
theorem test_decode_encode : decode 0b000000000000_0000_0000_0000_00100000#32 = .legal .encode := by decide
theorem test_decode_decode : decode 0b000000000000_0000_0000_0000_00100001#32 = .legal .decode := by decide

/-- The illegal words of 95_test_vectors.md section 5, by the reason. -/
theorem test_decode_illegal :
    decode 0x00000000#32 = .illegal .unknownOpcode ∧ decode 0x00000006#32 = .illegal .unknownOpcode ∧
    decode 0x00000013#32 = .illegal .unknownOpcode ∧ decode 0x00000022#32 = .illegal .unknownOpcode ∧
    decode 0x00040010#32 = .illegal .bankOutOfRange ∧ decode 0x00004010#32 = .illegal .bankOutOfRange ∧
    decode 0x80000020#32 = .illegal .reservedBits ∧ decode 0x00010011#32 = .illegal .unusedField ∧
    decode 0x00001012#32 = .illegal .unusedField := by decide

theorem test_decodeTableWord : decodeTableWord 32 0x00003311 = some (.minv 3#4 3#4) := by decide

/-! ### One step on small states: the vectors of 95_test_vectors.md -/

/-- The state after one step. -/
def after (s : State) : State :=
  match step s with
  | .next t => t
  | .fault _ => s
  | .refused _ => s

/-- The state in which the next step completes the word. -/
def run (s : State) (w : Nat) : State := after (s.withFetchWord 32 w)

/-- The reset state with operands a and b. -/
def withOps (a b : Byte) : State := { State.reset with opa := a, opb := b }

theorem test_fadd : (run (withOps 0x53#8 0xCA#8) 0x01).result = 0x99#8 := by decide
theorem test_fmul : (run (withOps 0x53#8 0xCA#8) 0x02).result = 0x8F#8 := by decide +kernel
theorem test_fmul_zero : (run (withOps 0x53#8 0x00#8) 0x02).result = 0x00#8 := by decide
theorem test_fdiv : (run (withOps 0x53#8 0xCA#8) 0x03).result = 0x6D#8 := by decide +kernel
theorem test_fdiv_by_zero : (run (withOps 0x00#8 0x00#8) 0x03).statusWord = 0x0000010D#32 := by decide
theorem test_finv : (run (withOps 0x53#8 0x00#8) 0x04).result = 0x8C#8 := by decide +kernel
theorem test_finv_of_zero : (run (withOps 0x00#8 0x01#8) 0x04).errcode = 0x01#8 := by decide
theorem test_fmulx : (run (withOps 0x80#8 0x80#8) 0x05).result = 0x13#8 := by decide
theorem test_illegal_word : (run (withOps 0x01#8 0x02#8) 0x00001001).statusWord = 0x0000070D#32 := by decide

/-- Banks 0 and 1 hold [[1,2],[3,4]] and [[5,6],[7,8]]. -/
def matrices : State :=
  { State.reset with
    mdim0 := { rows := 2#6, cols := 2#6 }, mdim1 := { rows := 2#6, cols := 2#6 },
    mem := [(0x1000, 1#8), (0x1001, 2#8), (0x1020, 3#8), (0x1021, 4#8),
            (0x1400, 5#8), (0x1401, 6#8), (0x1420, 7#8), (0x1421, 8#8)] }

theorem test_mmul : (run matrices 0x00010210).mem.drop 8 =
    [(0x1800, 0x0B#8), (0x1801, 0x16#8), (0x1820, 0x13#8), (0x1821, 0x2A#8)] := by decide +kernel
/-- `mmul m0, m0, m0` squares (41_matrix.md R115). -/
theorem test_mmul_square : (run matrices 0x00000010).mem.take 4 =
    [(0x1000, 0x07#8), (0x1001, 0x0A#8), (0x1020, 0x0F#8), (0x1021, 0x16#8)] := by decide +kernel
theorem test_minv : (run matrices 0x00000211).mem.drop 8 =
    [(0x1800, 0x02#8), (0x1801, 0x01#8), (0x1820, 0x8F#8), (0x1821, 0x8E#8)] := by decide +kernel
theorem test_minv_of_empty_shape : (run matrices 0x00003211).errcode = 0x06#8 := by decide
theorem test_genmat : (run { State.reset with dataChunks := 2#8, codeChunks := 2#8 } 0x00000312).mem =
    [(0x1C00, 1#8), (0x1C01, 0#8), (0x1C20, 0#8), (0x1C21, 1#8), (0x1C40, 3#8), (0x1C41, 2#8), (0x1C60, 2#8),
      (0x1C61, 3#8)] := by decide +kernel

/-- The 5-byte stream 00 FF 80 01 53 with k = 2 and m = 3 (95_test_vectors.md section 4.1). -/
def stream : State :=
  { State.reset with
    origLen := 5#16, dataChunks := 2#8, codeChunks := 3#8,
    mem := [(0x4000, 0x00#8), (0x4001, 0xFF#8), (0x4002, 0x80#8), (0x4003, 0x01#8), (0x4004, 0x53#8)] }

theorem test_encode : ((run stream 0x20).mem.drop 5).map Prod.snd =
    [0x00#8, 0x80#8, 0x53#8, 0xFF#8, 0x01#8, 0x00#8, 0xE3#8, 0x9F#8, 0xF5#8, 0x1C#8, 0x1E#8, 0xA6#8, 0xDB#8, 0xBE#8,
      0x02#8] ∧ (run stream 0x20).valid = 0x1F#32 ∧ (run stream 0x20).rowCount = 3#16 := by decide +kernel
/-- DECODE from columns 1 and 4 alone (95_test_vectors.md section 4.2, VALID = 0x12). -/
theorem test_decode_parity : ((run { stream with
      valid := 0x12#32,
      mem := [(0x8100, 0xFF#8), (0x8101, 0x01#8), (0x8102, 0x00#8), (0x8400, 0xDB#8), (0x8401, 0xBE#8),
        (0x8402, 0x02#8)] } 0x21).mem.take 5).map Prod.snd =
    [0x00#8, 0xFF#8, 0x80#8, 0x01#8, 0x53#8] := by decide +kernel
theorem test_decode_too_few : (run { stream with valid := 0x10#32 } 0x21).statusWord = 0x0000040D#32 := by decide

/-- A CMD write in INIT is dropped: STATUS becomes 0x12 (95_test_vectors.md section 6). -/
theorem test_cmd_in_init : (State.reset.hostWrite 0x018#16 0x1#32).statusWord = 0x00000012#32 := by decide
/-- `wr 0x1864, 0x04030201` sets BANK[2][3][4..7] (95_test_vectors.md section 6). -/
theorem test_buffer_write : (({ State.reset with phase := .idle }).hostWrite 0x1864#16 0x04030201#32).mem =
    [(0x1864, 1#8), (0x1865, 2#8), (0x1866, 3#8), (0x1867, 4#8)] := by decide
/-- The first step from reset is init-done (70_reset_and_hazards.md R181). -/
theorem test_init_done : after State.reset = { State.reset with phase := .idle } := by decide
/-- `wr CTRL, 0x3` soft-resets and discards IRQ_EN (95_test_vectors.md section 6). -/
theorem test_soft_reset : (({ State.reset with phase := .idle, opa := 1#8 }).hostWrite 0x010#16 0x3#32) =
    { State.reset with resp := some (.write false) } := by decide

/-! ### Witnesses: a state and operands that meet the hypotheses of each obligation -/

/-- A parameter set that meets the constraint: under 0x11B the order of 0x03 is 255 (95_test_vectors.md section 2.1). -/
def params11B : Params := { fieldPoly := 0x11B#9, fieldGen := 0x03#8, evalPoints := (List.range 32).map (BitVec.ofNat 8) }

theorem witness_params : params11B.ok = true := by decide +kernel

theorem witness_other_generator :
    ({ params11B with fieldGen := 0x05#8 } : Params).ok = true ∧
    ({ params11B with fieldGen := 0x05#8 } : Params).fieldPoly = params11B.fieldPoly ∧
    ({ params11B with fieldGen := 0x05#8 } : Params).evalPoints = params11B.evalPoints := by decide +kernel

/-- A state in phase EXEC with matrices, a stream and valid columns. -/
def busy : State :=
  { matrices with
    params := params11B, phase := .exec, cmd := 0x00010210#32, opa := 0x53#8, opb := 0xCA#8,
    origLen := 5#16, dataChunks := 2#8, codeChunks := 3#8, valid := 0x1F#32 }

/-- The same state in phase IDLE. -/
def idle : State := { busy with phase := .idle }

theorem witness_DecodeOfEncode : (Instr.mmul 3#4 0#4 3#4).WellFormed = true := by decide
theorem witness_EncodeOfDecode : decode 0x00033310#32 = .legal (.mmul 3#4 3#4 3#4) := by decide
theorem witness_IllegalWord : busy.phase = .exec ∧ engineNext busy ∧
    legalWord ({ busy with cmd := 0x00000410#32 } : State).cmd = false :=
  ⟨rfl, .inr ⟨rfl, by decide⟩, by decide⟩
theorem witness_IllFormed : (Instr.genmat 4#4).WellFormed = false := by decide
theorem witness_StepRuns : busy.phase = .exec ∧ engineNext busy ∧ decode busy.cmd = .legal (.mmul 2#4 0#4 1#4) :=
  ⟨rfl, .inr ⟨rfl, by decide⟩, by decide⟩
theorem witness_StepRuns_scheduled :
    engineNext ({ busy with sched := [.engine, .host] } : State) := .inl ⟨[.host], rfl⟩
/-- The host's turn, with each kind of operation first in its list and both outcomes of each poll. -/
theorem witness_StepHost :
    hostNext ({ idle with host := [.read 0x028#16] } : State) ∧ hostNext ({ idle with host := [.wait] } : State) ∧
    idle.statusWord.getLsbD 0 = true ∧ idle.statusWord.getLsbD 1 = false ∧
    hostNext ({ busy with host := [.wait], sched := [.host] } : State) ∧ busy.statusWord.getLsbD 1 = true ∧
    hostNext ({ State.reset with host := [.waitReady], sched := [.host] } : State) ∧
    State.reset.statusWord.getLsbD 0 = false ∧ engineNext ({ idle with sched := [.engine] } : State) :=
  ⟨.inr ⟨rfl, rfl⟩, .inr ⟨rfl, rfl⟩, by decide, by decide, .inl ⟨[], rfl⟩, by decide, .inl ⟨[], rfl⟩, by decide,
    .inl ⟨[], rfl⟩⟩
/-- A write of the host's list reaches the register (20_memory.md R59). -/
theorem test_host_write : (after { idle with host := [.write 0x020#16 0x1A5#32] }).opa = 0xA5#8 := by decide
theorem witness_Fdiv_zero : (withOps 0x00#8 0x00#8).opb = 0#8 := by decide
theorem witness_Fdiv : (withOps 0x00#8 0x01#8).opb ≠ 0#8 := by decide
theorem witness_Finv_zero : (withOps 0x00#8 0x01#8).opa = 0#8 := by decide
theorem witness_Finv : (withOps 0xFF#8 0x00#8).opa ≠ 0#8 := by decide
theorem witness_Fmulx : busy.params.fieldPoly.getLsbD 8 = true := by decide

theorem witness_Mmul : (2#4).toNat = (2 : BankId).val ∧ (0#4).toNat = (0 : BankId).val ∧ (1#4).toNat = (1 : BankId).val ∧
    1 ≤ (busy.mdim 0).rows.toNat ∧ (busy.mdim 0).rows.toNat ≤ 32 ∧ 1 ≤ (busy.mdim 0).cols.toNat ∧
    (busy.mdim 0).cols.toNat ≤ 32 ∧ 1 ≤ (busy.mdim 1).cols.toNat ∧ (busy.mdim 1).cols.toNat ≤ 32 ∧
    (busy.mdim 0).cols = (busy.mdim 1).rows := by decide
/-- The shape checks at their bounds: 0 and 33 are invalid, 32 is valid, 32 × 2 against 3 × 32 disagree. -/
theorem witness_MatrixShapeChecks : (Shape.of 0 1).valid = false ∧ (Shape.of 33 1).valid = false ∧
    (Shape.of 1 0).valid = false ∧ (Shape.of 1 33).valid = false ∧ (Shape.of 32 32).valid = true ∧
    (Shape.of 32 2).valid = true ∧ (Shape.of 3 32).valid = true ∧ (Shape.of 32 2).cols ≠ (Shape.of 3 32).rows := by
  decide
theorem witness_Minv : 1 ≤ (busy.mdim 0).rows.toNat ∧ (busy.mdim 0).rows = (busy.mdim 0).cols ∧
    (matInv (tables busy.params) 2 (busy.matOf 0)).isSome = true ∧
    matInv (tables busy.params) 2 [[1#8, 1#8], [1#8, 1#8]] = none := by decide +kernel
theorem witness_MinvDeterminant : busy.params.ok = true ∧ (busy.mdim 0).rows.toNat = 2 ∧ (busy.mdim 0).cols.toNat = 2 ∧
    det (tables busy.params) 2 (busy.matOf 0) ≠ 0#8 ∧
    det (tables busy.params) 2 [[1#8, 1#8], [1#8, 1#8]] = 0#8 := ⟨witness_params, by decide +kernel⟩
theorem witness_Genmat : (3#4).toNat = (3 : BankId).val ∧ 1 ≤ idle.k ∧ idle.k + idle.m ≤ 32 := by decide
theorem witness_GenmatRange :
    ({ idle with dataChunks := 0#8 } : State).dataChunks.toNat < 1 ∧
    ({ idle with dataChunks := 31#8, codeChunks := 2#8 } : State).dataChunks.toNat + 2 > 32 ∧
    ¬(({ idle with dataChunks := 32#8, codeChunks := 0#8 } : State).dataChunks.toNat + 0 > 32) := by decide
theorem witness_GeneratorInterpolates : params11B.ok = true ∧ 1 ≤ 2 ∧ 2 + 3 ≤ 32 ∧ 4 < 2 + 3 ∧ 1 < 2 :=
  ⟨witness_params, by decide⟩
theorem witness_GeneratorIsMds : params11B.ok = true ∧ [1, 4].length = 2 ∧ [1, 4].Nodup ∧ ∀ j ∈ [1, 4], j < 2 + 3 :=
  ⟨witness_params, by decide⟩
theorem witness_Stream : busy.params.ok = true ∧ 1 ≤ busy.k ∧ busy.k + busy.m ≤ 32 ∧ busy.len ≤ busy.k * 256 :=
  ⟨witness_params, by decide⟩
/-- The stream checks at their bounds (95_test_vectors.md section 4.1). -/
theorem witness_StreamRange :
    ({ busy with dataChunks := 0#8 } : State).streamOk = false ∧
    ({ busy with dataChunks := 32#8, codeChunks := 1#8 } : State).streamOk = false ∧
    ({ busy with origLen := 513#16 } : State).streamOk = false ∧
    ({ busy with origLen := 512#16 } : State).streamOk = true ∧
    ({ busy with dataChunks := 32#8, codeChunks := 0#8, origLen := 8192#16 } : State).streamOk = true := by decide
theorem witness_Decode : 1 ≤ busy.k ∧ busy.k + busy.m ≤ 32 ∧ busy.len ≤ busy.k * 256 ∧
    [0, 1] = ((List.range (busy.k + busy.m)).filter fun j => busy.valid.getLsbD j).take busy.k ∧
    [0, 1].length = busy.k ∧
    (matInv (tables busy.params) busy.k (genRows busy.params (tables busy.params) busy.k [0, 1])).isSome = true := by
  decide +kernel
/-- A Gs with no pivot needs equal points: with EVAL_POINT(2) = EVAL_POINT(3), columns 2 and 3 give equal rows. -/
theorem witness_Decode_singular :
    let P : Params := { params11B with evalPoints := [0#8, 1#8, 2#8, 2#8] }
    matInv (tables P) 2 (genRows P (tables P) 2 [2, 3]) = none := by decide +kernel
theorem witness_DecodeTooFew :
    ((List.range (busy.k + busy.m)).countP fun j =>
      ({ busy with valid := 0xFFFFFFF0#32 } : State).valid.getLsbD j) < busy.k := by decide
theorem witness_DecodeCopies : ∀ j, j < busy.k → busy.valid.getLsbD j = true := by decide
/-- An ENCODE and a state for the DECODE after it: the encoded state itself, with VALID as it is, with as few valid
columns as are enough, and with too few. -/
theorem witness_ErasureTolerance : ∃ t, exec .encode busy = .next t ∧ t.params = busy.params ∧
    t.origLen = busy.origLen ∧ t.dataChunks = busy.dataChunks ∧ t.codeChunks = busy.codeChunks ∧
    busy.k ≤ validCount ({ t with valid := 0x18#32 } : State) ∧
    validCount ({ t with valid := 0x10#32 } : State) < busy.k :=
  ⟨_, rfl, rfl, rfl, rfl, rfl, by decide, by decide⟩
theorem witness_EncodeReadsOnly : ∃ t t', exec .encode busy = .next t ∧ exec .encode { busy with opa := 0#8 } = .next t' ∧
    t.errcode = 0x00#8 := ⟨_, _, rfl, rfl, by decide +kernel⟩
theorem witness_DecodeReadsOnly : ∃ t t', exec .decode busy = .next t ∧ exec .decode { busy with opa := 0#8 } = .next t' ∧
    t.errcode = 0x00#8 := ⟨_, _, rfl, rfl, by decide +kernel⟩
theorem witness_FailedCommand : ∃ t, exec .fdiv (withOps 0x53#8 0x00#8) = .next t ∧ t.errcode ≠ 0x00#8 :=
  ⟨_, rfl, by decide⟩
theorem witness_ErrorCodes : ∃ t, (Instr.genmat 0#4).WellFormed = true ∧ exec (.genmat 0#4) State.reset = .next t :=
  ⟨_, by decide, rfl⟩
theorem witness_WriteOnlyDestination : ∃ t, exec (.mmul 2#4 0#4 1#4) busy = .next t ∧
    (Instr.mmul 2#4 0#4 1#4) ∉ [Instr.fadd, .fmul, .fdiv, .finv, .fmulx] ∧ (2#4).toNat ≠ (3 : BankId).val :=
  ⟨_, rfl, by decide, by decide⟩
theorem witness_Invariant : busy.Inv ∧ ∃ t, step busy = .next t :=
  ⟨⟨witness_params, by decide, by decide, by decide, fun h => by cases h⟩, _, rfl⟩
theorem witness_PhaseChange : ∃ t, step State.reset = .next t ∧ t.phase ≠ State.reset.phase := ⟨_, rfl, by decide⟩
theorem witness_InitDone : State.reset.phase = .init ∧ engineNext State.reset := ⟨rfl, .inr ⟨rfl, by decide⟩⟩
/-- A running command whose host writes CTRL without a soft reset, writes a register and polls. -/
def busyHost : State :=
  { busy with host := [.write 0x010#16 0x2#32, .write 0x020#16 1#32, .wait], sched := [.host, .host, .engine] }
theorem witness_EngineEvent : busyHost.phase = .exec ∧
    (∀ w, HostOp.write 0x010#16 w ∈ busyHost.host → w.getLsbD 0 = false) ∧ Turn.hardReset ∉ busyHost.sched := by
  refine ⟨rfl, fun w h => ?_, by decide⟩
  simp [busyHost] at h
  subst h
  decide
/-- The same in phase INIT. -/
theorem witness_EngineEvent_init : State.reset.phase = .init ∧
    (∀ w, HostOp.write 0x010#16 w ∉ State.reset.host) ∧ Turn.hardReset ∉ State.reset.sched :=
  ⟨rfl, fun _ h => (by cases h), by decide⟩
/-- irq rises by a completion, and by a CTRL write that enables a pending DONE (60_exceptions.md R160). -/
theorem witness_IrqRises :
    ({ busy with irqEn := true } : State).irq = false ∧ (after { busy with irqEn := true }).irq = true ∧
    ({ idle with done := true, host := [.write 0x010#16 0x2#32] } : State).irq = false ∧
    (after { idle with done := true, host := [.write 0x010#16 0x2#32] }).irq = true := by decide +kernel
theorem witness_StatusWrite : (0x4#32).getLsbD 2 = true ∧ (0x18#32).getLsbD 2 = false := by decide
theorem witness_Undisturbed : ({ busy with host := [.write 0x020#16 1#32] } : State).phase = .exec ∧
    ({ busy with host := [.write 0x020#16 1#32] } : State).hostTurn.phase = .exec := by decide
theorem witness_CmdWrite : idle.phase = .idle ∧ busy.phase ≠ .idle := by decide
/-- The mapped offsets next to the reserved ones, and the reserved ones at their bounds. -/
theorem witness_BusErrors : reservedOffset 0x008 = false ∧ reservedOffset 0x00C = true ∧ reservedOffset 0x01C = true ∧
    reservedOffset 0x04C = false ∧ reservedOffset 0x050 = true ∧ reservedOffset 0x0FFC = true ∧
    reservedOffset 0x1000 = false ∧ reservedOffset 0x1FFC = false ∧ reservedOffset 0x2000 = true ∧
    reservedOffset 0x4000 = false ∧ reservedOffset 0x5FFC = false ∧ reservedOffset 0x6000 = true ∧
    reservedOffset 0x8000 = false ∧ reservedOffset 0x9FFC = false ∧ reservedOffset 0xA000 = true ∧
    reservedOffset 0xFFFC = true ∧ 0x0016 % 4 ≠ 0 := by decide
theorem witness_BusyWrites : busy.phase ≠ .idle ∧ (0x018#16).toNat % 4 = 0 ∧ reservedOffset (0x018#16).toNat = false ∧
    0x018#16 ≠ 0x010#16 ∧ 0x018#16 ≠ 0x014#16 := by decide
theorem witness_BufferWords : idle.phase = .idle ∧ (0x9FFC#16).toNat % 4 = 0 ∧
    Memory.inBuffer (0x9FFC#16).toNat = true := by decide
theorem witness_CtrlWrite : (0x2#32).getLsbD 0 = false ∧ (0x3#32).getLsbD 0 = true := by decide
theorem witness_SoftReset : (0x1#32).getLsbD 0 = true ∧ idle.phase ≠ .exec := by decide
/-- Every clause of the abort: a command that would succeed, with a byte inside and one outside its destination, a command
that would fail, and an illegal word. -/
theorem witness_Abort : busy.phase = .exec ∧ (∃ u, exec (.mmul 2#4 0#4 1#4) busy = .next u ∧ u.errcode = 0x00#8) ∧
    (∃ u, exec (.minv 2#4 3#4) { busy with cmd := 0x00003211#32 } = .next u ∧ u.errcode ≠ 0x00#8) ∧
    decode 0x00003211#32 = .legal (.minv 2#4 3#4) ∧ decode 0x00000000#32 = .illegal .unknownOpcode ∧
    destination (.mmul 2#4 0#4 1#4) busy 0x1821 :=
  ⟨rfl, ⟨_, rfl, by decide +kernel⟩, ⟨_, rfl, by decide⟩, by decide, by decide,
    ⟨0, 1, by decide, by decide, 1, 1, by decide, by decide, by decide⟩⟩
theorem witness_HardwareReset : ({ busy with sched := [.hardReset] } : State).sched = [.hardReset] := rfl

end Sys2Proof.Tests
end

section
/-! PROOF. The shift-and-reduce product FMULX_fn (40_field.md R97) is a commutative and associative product with 0x01 as
its one, whatever the polynomial. -/

namespace Sys2Proof.Machine

theorem xtime_xor (poly : BitVec 9) (x y : Byte) : xtime poly (x ^^^ y) = xtime poly x ^^^ xtime poly y := by
  have hcancel (a b p : Byte) : a ^^^ p ^^^ (b ^^^ p) = a ^^^ b := by
    rw [BitVec.xor_comm b, BitVec.xor_assoc, ← BitVec.xor_assoc p, BitVec.xor_self, BitVec.zero_xor]
  simp only [xtime, BitVec.getLsbD_xor, BitVec.shiftLeft_xor_distrib]
  cases x.getLsbD 7 <;> cases y.getLsbD 7
  · rfl
  · exact BitVec.xor_assoc _ _ _
  · change x <<< 1 ^^^ y <<< 1 ^^^ poly.setWidth 8 = x <<< 1 ^^^ poly.setWidth 8 ^^^ y <<< 1
    ac_rfl
  · exact (hcancel _ _ _).symm

/-- An additive map that commutes with the multiplication by x passes through the loop to its registers p and x. -/
theorem map_fmulxLoop (poly : BitVec 9) {f : Byte → Byte} (hadd : ∀ x y, f (x ^^^ y) = f x ^^^ f y)
    (htime : ∀ x, f (xtime poly x) = xtime poly (f x)) (n : Nat) (p x y : Byte) :
    f (fmulxLoop poly n p x y) = fmulxLoop poly n (f p) (f x) y := by
  induction n generalizing p x y with
  | zero => rfl
  | succ n ih => rw [fmulxLoop, fmulxLoop, ih, htime, apply_ite f, hadd]

theorem fmulxLoop_xor (poly : BitVec 9) (n : Nat) (p p' x x' y : Byte) :
    fmulxLoop poly n (p ^^^ p') (x ^^^ x') y = fmulxLoop poly n p x y ^^^ fmulxLoop poly n p' x' y := by
  induction n generalizing p p' x x' y with
  | zero => rfl
  | succ n ih =>
    rw [fmulxLoop, fmulxLoop, fmulxLoop, xtime_xor, ← ih]
    split
    · congr 1; ac_rfl
    · rfl

theorem fmulx_xor_left (P : Params) (a b c : Byte) : fmulx P (a ^^^ b) c = fmulx P a c ^^^ fmulx P b c :=
  fmulxLoop_xor P.fieldPoly 8 0#8 0#8 a b c

@[simp] theorem fmulx_zero_left (P : Params) (a : Byte) : fmulx P 0#8 a = 0#8 := by
  simpa using fmulx_xor_left P 0#8 0#8 a

theorem fmulx_xtime_left (P : Params) (a b : Byte) :
    fmulx P (xtime P.fieldPoly a) b = xtime P.fieldPoly (fmulx P a b) := by
  have h0 : xtime P.fieldPoly 0#8 = 0#8 := by simp [xtime]
  have h := map_fmulxLoop P.fieldPoly (xtime_xor P.fieldPoly) (fun _ => rfl) 8 0#8 a b
  rw [h0] at h
  exact h.symm

/-- The products by b and by c commute, since the product by c passes through the loop of the product by b. -/
theorem fmulx_right_comm (P : Params) (a b c : Byte) : fmulx P (fmulx P a b) c = fmulx P (fmulx P a c) b := by
  have h := map_fmulxLoop P.fieldPoly (f := fun x => fmulx P x c) (fun x y => fmulx_xor_left P x y c)
    (fun x => fmulx_xtime_left P x c) 8 0#8 a b
  rwa [fmulx_zero_left] at h

/-- The powers of x up to x^7 need no reduction, so the polynomial does not enter. -/
@[simp] theorem fmulx_one_left (P : Params) (a : Byte) : fmulx P 0x01#8 a = a := by
  have h : ∀ a : Byte, fmulxLoop 0#9 8 0#8 0x01#8 a = a := by decide +kernel
  simpa [fmulxLoop, fmulx, xtime] using h a

theorem fmulx_comm (P : Params) (a b : Byte) : fmulx P a b = fmulx P b a := by
  simpa using fmulx_right_comm P 0x01#8 a b

theorem fmulx_assoc (P : Params) (a b c : Byte) : fmulx P (fmulx P a b) c = fmulx P a (fmulx P b c) := by
  rw [fmulx_comm P a b, fmulx_right_comm, fmulx_comm P a]

@[simp] theorem fmulx_zero_right (P : Params) (a : Byte) : fmulx P a 0#8 = 0#8 := by
  rw [fmulx_comm, fmulx_zero_left]

@[simp] theorem fmulx_one_right (P : Params) (a : Byte) : fmulx P a 0x01#8 = a := by
  rw [fmulx_comm, fmulx_one_left]

/-- FMULX_fn reads FIELD_POLY and no other parameter. -/
theorem fmulx_congr {P Q : Params} (h : P.fieldPoly = Q.fieldPoly) (a b : Byte) : fmulx P a b = fmulx Q a b := by
  rw [fmulx, fmulx, h]

end Sys2Proof.Machine
end

section
/-! PROOF. The powers of FIELD_GEN, the entries of EXP (40_field.md R91), and what follows when FIELD_GEN is primitive
(00_scope.md R8): they run through the nonzero bytes with period 255, and no two nonzero bytes have the product 0. -/

namespace Sys2Proof.Machine

/-- FIELD_GEN to the power `n`. -/
def genPow (P : Params) (n : Nat) : Byte := (fun x => fmulx P x P.fieldGen)^[n] 0x01#8

@[simp] theorem genPow_zero (P : Params) : genPow P 0 = 0x01#8 := rfl

theorem genPow_succ (P : Params) (n : Nat) : genPow P (n + 1) = fmulx P (genPow P n) P.fieldGen :=
  Function.iterate_succ_apply' _ _ _

theorem genPow_add (P : Params) (m n : Nat) : genPow P (m + n) = fmulx P (genPow P m) (genPow P n) := by
  induction n with
  | zero => simp
  | succ n ih => rw [← Nat.add_assoc, genPow_succ, ih, genPow_succ, fmulx_assoc]

theorem powersFrom_eq_iterate (P : Params) (n : Nat) (x : Byte) :
    powersFrom P n x = List.iterate (fun x => fmulx P x P.fieldGen) x n := by
  induction n generalizing x with
  | zero => rfl
  | succ n ih => rw [powersFrom, ih]; rfl

@[simp] theorem expEntries_length (P : Params) : (expEntries P).length = 255 := by
  rw [expEntries, powersFrom_eq_iterate, List.length_iterate]

theorem expEntries_getElem (P : Params) {i : Nat} (hi : i < (expEntries P).length) :
    (expEntries P)[i] = genPow P i := by
  simp only [expEntries, powersFrom_eq_iterate, List.getElem_iterate, genPow]

theorem mem_expEntries {P : Params} {x : Byte} : x ∈ expEntries P ↔ ∃ i < 255, genPow P i = x := by
  simp only [expEntries, powersFrom_eq_iterate, List.mem_iterate, genPow, eq_comm]

theorem genPow_mem_tail (P : Params) {i : Nat} (hi : i + 1 < 255) : genPow P (i + 1) ∈ (expEntries P).tail := by
  have hlen : i < (expEntries P).tail.length := by
    rw [List.length_tail, expEntries_length]; omega
  rw [← expEntries_getElem P (by rwa [expEntries_length]), ← List.getElem_tail hlen]
  exact List.getElem_mem hlen

theorem primitive_iff (P : Params) :
    primitive P = true ↔ (expEntries P).Nodup ∧ ∀ x ∈ expEntries P, x ≠ 0#8 := by
  simp only [primitive, Bool.and_eq_true, decide_eq_true_eq, List.all_eq_true]

/-- An element of order 255 is primitive: `i < j` with the same power would make the power `j - i` equal to 1. -/
theorem primitive_of_order {P : Params} (h255 : genPow P 255 = 0x01#8) (hone : 0x01#8 ∉ (expEntries P).tail) :
    primitive P = true := by
  have hpow (i j : Nat) (h : i + j = 255) : fmulx P (genPow P i) (genPow P j) = 0x01#8 := by
    rw [← genPow_add, h, h255]
  refine (primitive_iff P).mpr ⟨List.pairwise_iff_getElem.mpr fun i j hi hj hij heq => hone ?_, fun x hx h0 => ?_⟩
  · rw [expEntries_getElem, expEntries_getElem] at heq
    rw [expEntries_length] at hj
    have hdiff : genPow P (j - i) = 0x01#8 := by
      calc genPow P (j - i) = genPow P (j - i + 255) := by rw [genPow_add, h255, fmulx_one_right]
        _ = genPow P (j + (255 - i)) := by congr 1; omega
        _ = 0x01#8 := by rw [genPow_add, ← heq, hpow _ _ (by omega)]
    obtain ⟨d, hd⟩ := Nat.exists_eq_add_one_of_ne_zero (show j - i ≠ 0 by omega)
    rw [← hdiff, hd]
    exact genPow_mem_tail P (by omega)
  · obtain ⟨i, hi, rfl⟩ := mem_expEntries.mp hx
    have h := hpow i (255 - i) (by omega)
    rw [h0, fmulx_zero_left] at h
    exact absurd h (by decide)

theorem primitive_of_ok {P : Params} (h : P.ok = true) : primitive P = true := by
  simp only [Params.ok, Bool.and_eq_true] at h
  obtain ⟨⟨-, hprim⟩, -⟩ := h
  exact hprim

section
variable {P : Params} (hP : primitive P = true)
include hP

theorem genPow_inj {i j : Nat} (hi : i < 255) (hj : j < 255) (h : genPow P i = genPow P j) : i = j := by
  rw [← expEntries_length P] at hi hj
  rw [← expEntries_getElem P hi, ← expEntries_getElem P hj] at h
  exact ((primitive_iff P).mp hP).1.getElem_inj_iff.mp h

theorem genPow_ne_zero_of_lt {i : Nat} (hi : i < 255) : genPow P i ≠ 0#8 :=
  ((primitive_iff P).mp hP).2 _ (mem_expEntries.mpr ⟨i, hi, rfl⟩)

/-- The 255 entries of EXP and 0 are 256 distinct bytes, so there is no other byte. -/
theorem exists_genPow {x : Byte} (hx : x ≠ 0#8) : ∃ i < 255, genPow P i = x := by
  rw [← mem_expEntries]
  by_contra hmem
  obtain ⟨hnd, hne⟩ := (primitive_iff P).mp hP
  have hnodup : (0#8 :: x :: expEntries P).Nodup := by
    simp only [List.nodup_cons, List.mem_cons, not_or]
    exact ⟨⟨hx.symm, fun h0 => hne _ h0 rfl⟩, hmem, hnd⟩
  have hle := (hnodup.map (f := BitVec.toFin) fun _ _ => BitVec.eq_of_toFin_eq).length_le_card
  simp at hle

/-- If g^255 were 0, multiplying 1 ⊕ g = g^j by g^254 would give g^254 = g^(j + 254), which is 0 unless j = 0, that is
unless g = 0. -/
theorem genPow_255_ne_zero : genPow P 255 ≠ 0#8 := by
  intro h255
  have hone : genPow P 0 ^^^ genPow P 1 ≠ 0#8 := fun h0 =>
    absurd (genPow_inj hP (by omega) (by omega) (BitVec.xor_eq_zero_iff.mp h0)) (by omega)
  obtain ⟨j, hj, hsum⟩ := exists_genPow hP hone
  have hshift : genPow P (j + 254) = genPow P 254 := by
    rw [genPow_add, hsum, fmulx_xor_left, ← genPow_add, ← genPow_add, h255, BitVec.xor_zero]
  cases j with
  | zero =>
    have h1 : genPow P 1 = 0#8 := by
      rwa [eq_comm, ← BitVec.xor_right_inj (genPow P 0), BitVec.xor_zero]
    exact genPow_ne_zero_of_lt hP (by omega) h1
  | succ j =>
    refine genPow_ne_zero_of_lt hP (i := 254) (by omega) ?_
    rw [← hshift, show j + 1 + 254 = j + 255 by omega, genPow_add, h255, fmulx_zero_right]

theorem fmulx_fieldGen_ne_zero {x : Byte} (hx : x ≠ 0#8) : fmulx P x P.fieldGen ≠ 0#8 := by
  obtain ⟨i, hi, rfl⟩ := exists_genPow hP hx
  rw [← genPow_succ]
  by_cases hlast : i = 254
  · exact hlast ▸ genPow_255_ne_zero hP
  · exact genPow_ne_zero_of_lt hP (by omega)

theorem genPow_ne_zero (n : Nat) : genPow P n ≠ 0#8 := by
  induction n with
  | zero => exact genPow_ne_zero_of_lt hP (by omega)
  | succ n ih => rw [genPow_succ]; exact fmulx_fieldGen_ne_zero hP ih

theorem fmulx_ne_zero {a b : Byte} (ha : a ≠ 0#8) (hb : b ≠ 0#8) : fmulx P a b ≠ 0#8 := by
  obtain ⟨i, -, rfl⟩ := exists_genPow hP ha
  obtain ⟨j, -, rfl⟩ := exists_genPow hP hb
  rw [← genPow_add]
  exact genPow_ne_zero hP _

theorem fmulx_right_cancel {a b c : Byte} (hc : c ≠ 0#8) (h : fmulx P a c = fmulx P b c) : a = b := by
  rw [← BitVec.xor_eq_zero_iff] at h ⊢
  rw [← fmulx_xor_left] at h
  by_contra hab
  exact fmulx_ne_zero hP hab hc h

theorem genPow_255 : genPow P 255 = 0x01#8 := by
  obtain ⟨j, hj, hpow⟩ := exists_genPow hP (genPow_ne_zero hP 255)
  cases j with
  | zero => exact hpow.symm
  | succ j =>
    have hgen : P.fieldGen ≠ 0#8 := by simpa [genPow_succ] using genPow_ne_zero hP 1
    rw [genPow_succ, genPow_succ] at hpow
    have hj254 := genPow_inj hP (by omega) (by omega) (fmulx_right_cancel hP hgen hpow)
    omega

theorem genPow_mod (n : Nat) : genPow P (n % 255) = genPow P n :=
  Function.IsPeriodicPt.iterate_mod_apply (genPow_255 hP) n

end

end Sys2Proof.Machine
end

section
/-! PROOF. The table functions of 40_field.md R94 to R96 when FIELD_GEN is primitive: the table product is FMULX_fn, and
the table quotient solves the equation that defines it. -/

namespace Sys2Proof.Machine

theorem logAt_zero (P : Params) : (tables P).logAt 0#8 = 0 := rfl

section
variable {P : Params} (hP : primitive P = true)
include hP

/-- EXP at an exponent reduced mod 255 (40_field.md R103) is the power itself. -/
theorem expAt_mod (n : Nat) : (tables P).expAt (n % 255) = genPow P n := by
  have hn : n % 255 < (expEntries P).length := by
    rw [expEntries_length]; omega
  simp only [Tables.expAt, tables, List.getD_append _ _ _ _ hn, List.getD_eq_getElem _ _ hn, expEntries_getElem,
    genPow_mod hP]

theorem idxOf_genPow {i : Nat} (hi : i < 255) : (expEntries P).idxOf (genPow P i) = i := by
  rw [← expEntries_length P] at hi
  rw [← expEntries_getElem P hi]
  exact ((primitive_iff P).mp hP).1.idxOf_getElem i hi

theorem logAt_genPow {i : Nat} (hi : i < 255) : (tables P).logAt (genPow P i) = i := by
  obtain ⟨n, hn⟩ : ∃ n, (genPow P i).toNat = n + 1 :=
    Nat.exists_eq_add_one_of_ne_zero fun h0 => genPow_ne_zero hP i (BitVec.eq_of_toNat_eq h0)
  have hlt : n < 255 := by
    have := (genPow P i).isLt
    omega
  have hbyte : BitVec.ofNat 8 (1 + n) = genPow P i := by
    rw [Nat.add_comm, ← hn, BitVec.ofNat_toNat, BitVec.setWidth_eq]
  have hmod : i % 256 = i := Nat.mod_eq_of_lt (by omega)
  simp [Tables.logAt, tables, hn, hlt, hbyte, idxOf_genPow hP hi, hmod]

theorem logAt_one : (tables P).logAt 0x01#8 = 0 := logAt_genPow hP (i := 0) (by omega)

theorem logAt_lt {x : Byte} (hx : x ≠ 0#8) : (tables P).logAt x < 255 := by
  obtain ⟨i, hi, rfl⟩ := exists_genPow hP hx
  rwa [logAt_genPow hP hi]

theorem genPow_logAt {x : Byte} (hx : x ≠ 0#8) : genPow P ((tables P).logAt x) = x := by
  obtain ⟨i, hi, rfl⟩ := exists_genPow hP hx
  rw [logAt_genPow hP hi]

theorem genPow_logAt_add_255 {x : Byte} (hx : x ≠ 0#8) : genPow P ((tables P).logAt x + 255) = x := by
  rw [genPow_add, genPow_255 hP, fmulx_one_right, genPow_logAt hP hx]

/-- The table product is the shift-and-reduce product (40_field.md section 2). -/
theorem fmul_eq_fmulx (a b : Byte) : fmul (tables P) a b = fmulx P a b := by
  unfold fmul
  split
  case isTrue hzero => rcases hzero with rfl | rfl <;> simp
  case isFalse hne =>
    obtain ⟨ha, hb⟩ := not_or.mp hne
    rw [expAt_mod hP, genPow_add, genPow_logAt hP ha, genPow_logAt hP hb]

/-- What the quotient's formula gives at the divisor 0, where no rule uses it: LOG[0] = 0. -/
theorem fquot_zero_right (a : Byte) : fquot (tables P) a 0#8 = a := by
  unfold fquot
  split
  case isTrue hzero => exact hzero.symm
  case isFalse ha => rw [logAt_zero, expAt_mod hP, Nat.sub_zero, genPow_logAt_add_255 hP ha]

theorem fmulx_fquot (a : Byte) {b : Byte} (hb : b ≠ 0#8) : fmulx P (fquot (tables P) a b) b = a := by
  unfold fquot
  split
  case isTrue hzero => rw [fmulx_zero_left, hzero]
  case isFalse ha =>
    have hlog := logAt_lt hP hb
    rw [expAt_mod hP]
    calc fmulx P (genPow P ((tables P).logAt a + 255 - (tables P).logAt b)) b
        = genPow P ((tables P).logAt a + 255 - (tables P).logAt b + (tables P).logAt b) := by
          rw [genPow_add, genPow_logAt hP hb]
      _ = genPow P ((tables P).logAt a + 255) := by rw [Nat.sub_add_cancel (by omega)]
      _ = a := genPow_logAt_add_255 hP ha

/-- The inverse is the quotient of 1, also where it fails. -/
theorem finv_eq_fdiv_one (a : Byte) : finv (tables P) a = fdiv (tables P) 0x01#8 a := by
  simp [finv, fdiv, fquot, logAt_one hP]

end

end Sys2Proof.Machine
end

section
/-! PROOF. The constraint on the parameters and the choice of FIELD_GEN (00_scope.md R8, R9). -/

namespace Sys2Proof.Machine

section
variable {P Q : Params} (hP : primitive P = true) (hQ : primitive Q = true) (hpoly : P.fieldPoly = Q.fieldPoly)
include hP hQ hpoly

theorem fmul_tables_congr (a b : Byte) : fmul (tables P) a b = fmul (tables Q) a b := by
  rw [fmul_eq_fmulx hP, fmul_eq_fmulx hQ, fmulx_congr hpoly]

/-- Both quotients solve q ⊗ b = a, which has one solution. -/
theorem fquot_tables_congr (a b : Byte) : fquot (tables P) a b = fquot (tables Q) a b := by
  by_cases hb : b = 0#8
  · rw [hb, fquot_zero_right hP, fquot_zero_right hQ]
  · refine fmulx_right_cancel hP hb ?_
    rw [fmulx_fquot hP a hb, fmulx_congr hpoly, fmulx_fquot hQ a hb]

theorem fdiv_tables_congr (a b : Byte) : fdiv (tables P) a b = fdiv (tables Q) a b := by
  rw [fdiv, fdiv, fquot_tables_congr hP hQ hpoly]

theorem finv_tables_congr (a : Byte) : finv (tables P) a = finv (tables Q) a := by
  rw [finv_eq_fdiv_one hP, finv_eq_fdiv_one hQ, fdiv_tables_congr hP hQ hpoly]

/-- A command reads the parameters through the field operations and the evaluation points only. -/
theorem instrResult_params_congr (heval : P.evalPoints = Q.evalPoints) (i : Instr) (s : State) :
    instrResult i { s with params := P } = instrResult i { s with params := Q } := by
  have hmul := fmul_tables_congr hP hQ hpoly
  have hquot := fquot_tables_congr hP hQ hpoly
  have hgen := genRows_congr hmul hquot heval
  cases i with
  | fadd => rfl
  | fmul => exact congrArg (fun r => CmdResult.ok (.result r)) (hmul s.opa s.opb)
  | fdiv => exact congrArg resultOr (fdiv_tables_congr hP hQ hpoly s.opa s.opb)
  | finv => exact congrArg resultOr (finv_tables_congr hP hQ hpoly s.opa)
  | fmulx => exact congrArg (fun r => CmdResult.ok (.result r)) (fmulx_congr hpoly s.opa s.opb)
  | mmul d a b =>
    simp only [instrResult, mmulResult, mmulBanks, matMul_congr hmul]
    rfl
  | minv d a =>
    simp only [instrResult, minvResult, minvBanks, matInv_congr hmul hquot]
    rfl
  | genmat d =>
    simp only [instrResult, genmatResult, genmatBank, hgen]
    rfl
  | encode =>
    simp only [instrResult, encodeResult, codewordColumns, matMul_congr hmul, hgen]
    rfl
  | decode =>
    simp only [instrResult, decodeResult, selectedRows, recoveredColumns, matInv_congr hmul hquot, matMul_congr hmul,
      hgen]
    rfl

end

/-- A completion neither reads nor writes the parameters. -/
theorem complete_params (r : CmdResult) (s : State) (P Q : Params) :
    complete r { s with params := Q } = { complete r { s with params := P } with params := Q } := by
  cases r with
  | ok e => cases e <;> rfl
  | err k => rfl

/-- Settles O18: the table product is FMULX_fn, which does not read FIELD_GEN, and the quotient is determined by it. -/
theorem generatorChangesNoResult : Obligations.GeneratorChangesNoResult := by
  unfold Obligations.GeneratorChangesNoResult
  intro P Q hPok hQok hpoly
  have hP := primitive_of_ok hPok
  have hQ := primitive_of_ok hQok
  refine ⟨fun a b => ⟨fmul_tables_congr hP hQ hpoly a b, fdiv_tables_congr hP hQ hpoly a b,
    finv_tables_congr hP hQ hpoly a⟩, fun heval i s => ?_⟩
  have hres := instrResult_params_congr hP hQ hpoly heval i s
  refine ⟨hres, complete (instrResult i { s with params := P }) { s with params := P }, exec_eq i _, ?_⟩
  rw [exec_eq, ← hres]
  exact congrArg Host.Outcome.next (complete_params _ s P Q)

theorem irreducible_default : irreducible Params.default.fieldPoly = true := by decide +kernel

theorem primitive_default : primitive Params.default = true :=
  primitive_of_order (by decide +kernel) (by decide +kernel)

theorem distinctPoints_default : distinctPoints Params.default = true := by decide

/-- Settles O13, by evaluating the three parts of the constraint on the default parameters. -/
theorem defaultParametersMeetTheirConstraint : Obligations.DefaultParametersMeetTheirConstraint := by
  unfold Obligations.DefaultParametersMeetTheirConstraint
  simp only [Params.ok, irreducible_default, primitive_default, distinctPoints_default, Bool.and_self]

end Sys2Proof.Machine
end

section
/-! PROOF. Which command writes what: the kinds of effect of 60_exceptions.md R152, and the frame of every command
(10_state.md R23, the column "written by the engine"). -/

namespace Sys2Proof.Machine

/-- The command may have an effect of this kind: RESULT is written by the field commands, bank `d` and its MDIM by the
matrix commands with D = d, CW and VALID by ENCODE, DATA by DECODE. -/
def Effect.WrittenBy : Effect → Instr → Prop
  | .result _, i => i ∈ [.fadd, .fmul, .fdiv, .finv, .fmulx]
  | .matrix b _ _, i => (∃ d x y, i = .mmul d x y ∧ d.toNat = b.val) ∨ (∃ d x, i = .minv d x ∧ d.toNat = b.val) ∨
      ∃ d, i = .genmat d ∧ d.toNat = b.val
  | .codeword _ _ _, i => i = .encode
  | .data _ _, i => i = .decode

/-- A command that completes with NONE has an effect of its own kind. -/
theorem writtenBy_of_instrResult_ok {i : Instr} {s : State} {e : Effect} (h : instrResult i s = .ok e) :
    e.WrittenBy i := by
  have hfield : ∀ o, resultOr o = .ok e → i ∈ [.fadd, .fmul, .fdiv, .finv, .fmulx] → e.WrittenBy i := by
    intro o ho hi
    cases o <;> cases ho
    exact hi
  cases i with
  | fadd => exact hfield (some _) h (by simp)
  | fmul => exact hfield (some _) h (by simp)
  | fdiv => exact hfield _ h (by simp)
  | finv => exact hfield _ h (by simp)
  | fmulx => exact hfield (some _) h (by simp)
  | mmul d a b =>
    obtain ⟨d', _, _, hd, _, _, _, _, _, rfl⟩ := mmulResult_ok h
    exact .inl ⟨d, a, b, rfl, bankOf_eq_some.mp hd⟩
  | minv d a =>
    obtain ⟨d', _, _, hd, _, _, _, _, rfl⟩ := minvResult_ok h
    exact .inr (.inl ⟨d, a, rfl, bankOf_eq_some.mp hd⟩)
  | genmat d =>
    obtain ⟨d', hd, _, rfl⟩ := genmatResult_ok h
    exact .inr (.inr ⟨d, rfl, bankOf_eq_some.mp hd⟩)
  | encode => obtain ⟨_, rfl⟩ := encodeResult_ok h; rfl
  | decode => obtain ⟨_, _, _, _, rfl⟩ := decodeResult_ok h; rfl

section
variable {e : Effect} {i : Instr} (h : e.WrittenBy i) (s : State)
include h

theorem applyEffect_keeps_result (hi : i ∉ [.fadd, .fmul, .fdiv, .finv, .fmulx]) :
    (applyEffect e s).result = s.result := by
  cases e with
  | result r => exact absurd h hi
  | _ => rfl

theorem applyEffect_keeps_rowCount (he : i ≠ .encode) (hd : i ≠ .decode) : (applyEffect e s).rowCount = s.rowCount := by
  cases e with
  | codeword cells v rc => exact absurd h he
  | data cells rc => exact absurd h hd
  | _ => rfl

theorem applyEffect_keeps_valid (he : i ≠ .encode) : (applyEffect e s).valid = s.valid := by
  cases e with
  | codeword cells v rc => exact absurd h he
  | _ => rfl

theorem applyEffect_keeps_mdim (b : BankId) (hmmul : ∀ d x y, i = .mmul d x y → d.toNat ≠ b.val)
    (hminv : ∀ d x, i = .minv d x → d.toNat ≠ b.val) (hgenmat : ∀ d, i = .genmat d → d.toNat ≠ b.val) :
    (applyEffect e s).mdim b = s.mdim b := by
  cases e with
  | matrix c shape cells =>
    have hbc : b ≠ c := by
      rintro rfl
      rcases h with ⟨d, x, y, hi, hd⟩ | ⟨d, x, hi, hd⟩ | ⟨d, hi, hd⟩
      · exact hmmul d x y hi hd
      · exact hminv d x hi hd
      · exact hgenmat d hi hd
    exact State.mdim_setMdim_ne _ _ _ _ hbc
  | _ => rfl

end

theorem readByte_applyEffect_of_not_mem (e : Effect) (s : State) {a : Nat} (h : ∀ c ∈ e.stores, c.1 ≠ a) :
    (applyEffect e s).readByte a = s.readByte a := by
  rw [State.readByte_def, State.readByte_def, applyEffect_mem, applyEffect_resets, Memory.get?_store_of_not_mem _ _ _ h]

/-- Settles O40: a failed command keeps all five, and a command that succeeds has an effect of its own kind, whose
buffer bytes lie in its destination. -/
theorem commandsWriteOnlyTheirDestination : Obligations.CommandsWriteOnlyTheirDestination := by
  unfold Obligations.CommandsWriteOnlyTheirDestination
  intro i s t hexec
  rw [exec_eq] at hexec
  cases hexec
  cases hr : instrResult i s with
  | err k => exact ⟨fun _ => rfl, fun _ _ => rfl, fun _ => rfl, fun _ _ _ _ => rfl, fun _ _ => rfl⟩
  | ok e =>
    have hkind := writtenBy_of_instrResult_ok hr
    refine ⟨applyEffect_keeps_result hkind s, applyEffect_keeps_rowCount hkind s, applyEffect_keeps_valid hkind s,
      applyEffect_keeps_mdim hkind s, fun a ha => readByte_applyEffect_of_not_mem e s fun c hc hca => ha ?_⟩
    exact hca ▸ instrResult_stores_destination hr c hc

end Sys2Proof.Machine
end

section
/-! PROOF. What a turn of the host can do (20_memory.md R51, R56; 60_exceptions.md R155), said once, and what follows for
the phase (10_state.md R21), the interrupt line (R40) and a running command (R41). -/

namespace Sys2Proof.Machine

/-! ### Whose turn a step is -/

/-- A step is the host's turn, the engine's or the hardware reset, on the state with the turn taken off. -/
theorem step_turn_cases {s t : State} (h : step s = .next t) :
    (hostNext s ∧ t = (popTurn s).hostTurn) ∨ (engineNext s ∧ engineTurn (popTurn s) = .next t) ∨
    ((∃ rest, s.sched = .hardReset :: rest) ∧ t = hardwareReset (popTurn s)) := by
  have hhost : hostNext s → t = (popTurn s).hostTurn := fun hn => by
    rw [step_of_hostNext hn] at h
    cases h
    rfl
  have hengine : engineNext s → engineTurn (popTurn s) = .next t := fun hn => step_of_engineNext hn ▸ h
  cases hs : s.sched with
  | nil =>
    by_cases hp : s.phase = .idle
    · exact .inl ⟨.inr ⟨hs, hp⟩, hhost (.inr ⟨hs, hp⟩)⟩
    · exact .inr (.inl ⟨.inr ⟨hs, hp⟩, hengine (.inr ⟨hs, hp⟩)⟩)
  | cons turn rest =>
    cases turn with
    | host => exact .inl ⟨.inl ⟨rest, hs⟩, hhost (.inl ⟨rest, hs⟩)⟩
    | engine => exact .inr (.inl ⟨.inl ⟨rest, hs⟩, hengine (.inl ⟨rest, hs⟩)⟩)
    | hardReset =>
      rw [step_hardReset hs, ← popTurn_of_cons hs] at h
      cases h
      exact .inr (.inr ⟨⟨rest, rfl⟩, rfl⟩)

/-- The engine's turn is init-done, nothing, or the completion of the command in CMD. -/
theorem engineTurn_cases {s t : State} (h : engineTurn s = .next t) :
    (s.phase = .init ∧ t = initDone s) ∨ (s.phase = .idle ∧ t = s) ∨
    (s.phase = .exec ∧ t = complete (commandResult s.cmd s) s) := by
  cases hp : s.phase with
  | init => rw [engineTurn_init s hp] at h; cases h; exact .inl ⟨rfl, rfl⟩
  | idle => rw [engineTurn_idle s hp] at h; injection h with h; exact .inr (.inl ⟨rfl, h.symm⟩)
  | exec => rw [engineTurn_exec s hp] at h; cases h; exact .inr (.inr ⟨rfl, rfl⟩)

/-! ### Writes -/

theorem State.hostWrite_ctrl (s : State) (w : Word) :
    s.hostWrite (regOffset .ctrl) w = (s.writeCtrl w).setResp (some (.write false)) := rfl

theorem State.hostWrite_status (s : State) (w : Word) :
    s.hostWrite (regOffset .status) w = (s.writeStatus w).setResp (some (.write false)) := rfl

theorem State.hostWrite_busy {s : State} {r : Reg} (w : Word) (hp : s.phase ≠ .idle) (hc : r ≠ .ctrl)
    (hs : r ≠ .status) : s.hostWrite (regOffset r) w = s.dropWrite.setResp (some (.write false)) := by
  unfold State.hostWrite
  rw [target_regOffset]
  cases r with
  | ctrl => exact absurd rfl hc
  | status => exact absurd rfl hs
  | _ => simp [State.writeTarget, hp]

theorem State.writeCtrl_softReset {s : State} {w : Word} (h : w.getLsbD 0 = true) : s.writeCtrl w = s.softReset := by
  rw [State.writeCtrl, if_pos h]

theorem State.writeCtrl_irqEn {s : State} {w : Word} (h : w.getLsbD 0 = false) :
    s.writeCtrl w = s.setIrqEn (w.getLsbD 1) := by
  rw [State.writeCtrl, h]; rfl

@[simp] theorem State.softReset_phase (s : State) : s.softReset.phase = .init := rfl
@[simp] theorem State.softReset_irqEn (s : State) : s.softReset.irqEn = false := rfl
@[simp] theorem State.softReset_overrun (s : State) : s.softReset.overrun = false := rfl
@[simp] theorem State.softReset_irq (s : State) : s.softReset.irq = false := rfl

/-- All a write of the host can be, by the target and the phase: a bus error, a write of CTRL or STATUS, a dropped
write, an accepted command, a register write or a buffer write in phase IDLE. -/
theorem State.hostWrite_cases (s : State) (a : Addr) (w : Word) :
    (s.hostWrite a w = s.setResp (some (.write true))) ∨
    ∃ u : State, s.hostWrite a w = u.setResp (some (.write false)) ∧
      ((a = regOffset .ctrl ∧ u = s.writeCtrl w) ∨ (a = regOffset .status ∧ u = s.writeStatus w) ∨
      (s.phase ≠ .idle ∧ u = s.dropWrite) ∨ (s.phase = .idle ∧ a = regOffset .cmd ∧ u = s.accept w) ∨
      (s.phase = .idle ∧ ∃ r, r ≠ .cmd ∧ u = s.writeIdleReg r w) ∨
      (s.phase = .idle ∧ ∃ b, u = s.writeBufferWord b w)) := by
  cases ht : target a with
  | none => exact .inl (by simp [State.hostWrite, ht])
  | some t =>
    refine .inr ⟨s.writeTarget t w, by simp [State.hostWrite, ht], ?_⟩
    cases t with
    | buffer b =>
      by_cases hp : s.phase = .idle
      · exact .inr (.inr (.inr (.inr (.inr ⟨hp, b, if_pos hp⟩))))
      · exact .inr (.inr (.inl ⟨hp, if_neg hp⟩))
    | reg r =>
      have ha := eq_regOffset_of_target ht
      by_cases hc : r = .ctrl
      · subst hc; exact .inl ⟨ha, rfl⟩
      by_cases hs : r = .status
      · subst hs; exact .inr (.inl ⟨ha, rfl⟩)
      have hw : s.writeTarget (.reg r) w = if s.phase = .idle then s.writeIdleReg r w else s.dropWrite := by
        cases r with
        | ctrl => exact absurd rfl hc
        | status => exact absurd rfl hs
        | _ => rfl
      rw [hw]
      by_cases hp : s.phase = .idle
      · rw [if_pos hp]
        by_cases hcmd : r = .cmd
        · subst hcmd; exact .inr (.inr (.inr (.inl ⟨hp, ha, rfl⟩)))
        · exact .inr (.inr (.inr (.inr (.inl ⟨hp, r, hcmd, rfl⟩))))
      · exact .inr (.inr (.inl ⟨hp, if_neg hp⟩))

theorem State.writeIdleReg_phase {s : State} {r : Reg} (w : Word) (h : r ≠ .cmd) :
    (s.writeIdleReg r w).phase = s.phase := by
  cases r with
  | cmd => exact absurd rfl h
  | _ => rfl

theorem State.writeIdleReg_irq (s : State) (r : Reg) (w : Word) : (s.writeIdleReg r w).irq = s.irq := by
  cases r <;> rfl

/-- The phase after a write: INIT by a soft reset, EXEC by acceptance, else kept (10_state.md R21). -/
theorem State.phase_hostWrite (s : State) (a : Addr) (w : Word) :
    (s.hostWrite a w).phase = s.phase ∨
    (a = regOffset .ctrl ∧ w.getLsbD 0 = true ∧ (s.hostWrite a w).phase = .init) ∨
    (a = regOffset .cmd ∧ s.phase = .idle ∧ (s.hostWrite a w).phase = .exec ∧ (s.hostWrite a w).cmd = w) := by
  rcases s.hostWrite_cases a w with h | ⟨u, h, hu⟩
  · rw [h]; exact .inl rfl
  rw [h]
  rcases hu with ⟨ha, rfl⟩ | ⟨-, rfl⟩ | ⟨-, rfl⟩ | ⟨hp, ha, rfl⟩ | ⟨-, r, hr, rfl⟩ | ⟨-, b, rfl⟩
  · cases hw : w.getLsbD 0 with
    | true => rw [State.writeCtrl_softReset hw]; exact .inr (.inl ⟨ha, rfl, rfl⟩)
    | false => rw [State.writeCtrl_irqEn hw]; exact .inl rfl
  · exact .inl rfl
  · exact .inl rfl
  · exact .inr (.inr ⟨ha, hp, rfl, rfl⟩)
  · exact .inl (State.writeIdleReg_phase w hr)
  · exact .inl rfl

/-- A write raises the interrupt line only by setting IRQ_EN over a pending DONE (60_exceptions.md R160). -/
theorem State.irq_hostWrite {s : State} {a : Addr} {w : Word} (hs : s.irq = false) (ht : (s.hostWrite a w).irq = true) :
    s.done = true ∧ a = regOffset .ctrl ∧ w.getLsbD 0 = false ∧ w.getLsbD 1 = true := by
  have hne : (s.hostWrite a w).irq ≠ s.irq := by rw [hs, ht]; decide
  rcases s.hostWrite_cases a w with h | ⟨u, h, hu⟩
  · rw [h] at hne; exact absurd rfl hne
  rw [h] at ht hne
  rcases hu with ⟨ha, rfl⟩ | ⟨-, rfl⟩ | ⟨-, rfl⟩ | ⟨-, -, rfl⟩ | ⟨-, r, -, rfl⟩ | ⟨-, b, rfl⟩
  · cases hw : w.getLsbD 0 with
    | true => rw [State.writeCtrl_softReset hw] at ht; cases ht
    | false =>
      rw [State.writeCtrl_irqEn hw] at ht
      obtain ⟨hw1, hd⟩ := Bool.and_eq_true_iff.mp ht
      exact ⟨hd, ha, rfl, hw1⟩
  · have hd : (s.irqEn && (s.done && !w.getLsbD 2)) = true := ht
    rw [← Bool.and_assoc, ← State.irq, hs] at hd
    cases hd
  · exact absurd rfl hne
  · exact absurd rfl hne
  · exact absurd (s.writeIdleReg_irq r w) hne
  · exact absurd rfl hne

/-- A write in phase EXEC that is no soft reset changes flags and the response only. -/
theorem State.hostWrite_exec {s : State} {a : Addr} {w : Word} (hp : s.phase = .exec)
    (ht : (s.hostWrite a w).phase = .exec) : ∃ i d e o r,
      s.hostWrite a w = { s with irqEn := i, done := d, error := e, overrun := o, resp := r } := by
  rcases s.hostWrite_cases a w with h | ⟨u, h, hu⟩
  · exact ⟨_, _, _, _, _, h⟩
  rw [h] at ht ⊢
  have hidle : s.phase ≠ .idle := by simp [hp]
  rcases hu with ⟨-, rfl⟩ | ⟨-, rfl⟩ | ⟨-, rfl⟩ | ⟨h', -⟩ | ⟨h', -⟩ | ⟨h', -⟩
  · cases hw : w.getLsbD 0 with
    | true => rw [State.writeCtrl_softReset hw] at ht; cases ht
    | false => rw [State.writeCtrl_irqEn hw]; exact ⟨_, _, _, _, _, rfl⟩
  · exact ⟨_, _, _, _, _, rfl⟩
  · exact ⟨_, _, _, _, _, rfl⟩
  · exact absurd h' hidle
  · exact absurd h' hidle
  · exact absurd h' hidle

/-! ### Turns of the host -/

/-- A turn of the host is a write of the port, or changes the host's list, the response and the number of draws only. -/
theorem State.hostTurn_cases (s : State) :
    (∃ a w rest, s.host = .write a w :: rest ∧ s.hostTurn = (s.setHost rest).hostWrite a w) ∨
    ∃ l r n, s.hostTurn = { s with host := l, resp := r, draws := n } := by
  have hread : ∀ (l : List HostOp) (a : Addr),
      ∃ l' r n, (s.setHost l).hostRead a = { s with host := l', resp := r, draws := n } := fun l a => by
    obtain ⟨r, n, h⟩ := (s.setHost l).hostRead_frame a
    exact ⟨l, r, n, h⟩
  cases hh : s.host with
  | nil => exact .inr ⟨s.host, s.resp, s.draws, State.hostTurn_nil hh⟩
  | cons op rest =>
    cases op with
    | write a w => exact .inl ⟨a, w, rest, rfl, State.hostTurn_write hh⟩
    | read a => rw [State.hostTurn_read hh]; exact .inr (hread rest a)
    | wait =>
      rw [State.hostTurn_wait hh]
      split
      · exact .inr (hread s.host _)
      · exact .inr (hread rest _)
    | waitReady =>
      rw [State.hostTurn_waitReady hh]
      split
      · exact .inr (hread rest _)
      · exact .inr (hread s.host _)

/-- The phase changes at the host's turn only by a soft reset and by acceptance (10_state.md R21). -/
theorem State.phase_hostTurn {s : State} (h : s.hostTurn.phase ≠ s.phase) : ∃ a w rest, s.host = .write a w :: rest ∧
    ((a = regOffset .ctrl ∧ w.getLsbD 0 = true ∧ s.hostTurn.phase = .init) ∨
      (a = regOffset .cmd ∧ s.phase = .idle ∧ s.hostTurn.phase = .exec ∧ s.hostTurn.cmd = w)) := by
  rcases s.hostTurn_cases with ⟨a, w, rest, hh, ht⟩ | ⟨l, r, n, ht⟩
  · rw [ht] at h ⊢
    exact ⟨a, w, rest, hh, ((s.setHost rest).phase_hostWrite a w).resolve_left h⟩
  · rw [ht] at h; exact absurd rfl h

/-- The interrupt line rises at the host's turn only by a CTRL write over a pending DONE (60_exceptions.md R160). -/
theorem State.irq_hostTurn {s : State} (hs : s.irq = false) (ht : s.hostTurn.irq = true) : s.done = true ∧
    ∃ w rest, s.host = .write (regOffset .ctrl) w :: rest ∧ w.getLsbD 0 = false ∧ w.getLsbD 1 = true := by
  rcases s.hostTurn_cases with ⟨a, w, rest, hh, h⟩ | ⟨l, r, n, h⟩
  · rw [h] at ht
    obtain ⟨hd, rfl, h0, h1⟩ := State.irq_hostWrite (s := s.setHost rest) hs ht
    exact ⟨hd, w, rest, hh, h0, h1⟩
  · rw [h] at ht; exact absurd (hs.symm.trans ht) (by decide)

/-- Settles O44: by whose turn the step is; at the host's turn by `State.phase_hostTurn`. -/
theorem phaseChangesOnlyByItsEvents : Obligations.PhaseChangesOnlyByItsEvents := by
  unfold Obligations.PhaseChangesOnlyByItsEvents
  refine ⟨fun s => ⟨s.statusWord_ready, s.statusWord_busy⟩, fun s t hstep hne => ?_⟩
  rcases step_turn_cases hstep with ⟨hn, rfl⟩ | ⟨hn, he⟩ | ⟨hn, rfl⟩
  · obtain ⟨a, w, rest, hh, ⟨rfl, hw, ht⟩ | ⟨rfl, hp, ht, hcmd⟩⟩ := State.phase_hostTurn hne
    · exact .inl ⟨ht, .inr ⟨hn, w, rest, hh, hw⟩⟩
    · exact .inr (.inr (.inl ⟨hp, ht, hn, w, rest, hh, hcmd⟩))
  · rcases engineTurn_cases he with ⟨hp, rfl⟩ | ⟨-, rfl⟩ | ⟨hp, rfl⟩
    · exact .inr (.inl ⟨hp, rfl, hn⟩)
    · exact absurd rfl hne
    · exact .inr (.inr (.inr ⟨hp, rfl, hn⟩))
  · exact .inl ⟨rfl, .inl hn⟩

/-- Settles O47: in phase EXEC a turn that is no soft reset changes no input of a command. -/
theorem runningCommandIsUndisturbed : Obligations.RunningCommandIsUndisturbed := by
  unfold Obligations.RunningCommandIsUndisturbed
  intro s hp ht
  rcases s.hostTurn_cases with ⟨a, w, rest, -, h⟩ | ⟨l, r, n, h⟩
  · rw [h] at ht ⊢
    obtain ⟨i, d, e, o, r, h'⟩ := State.hostWrite_exec (s := s.setHost rest) hp ht
    rw [h']
    exact ⟨rfl, commandResult_congr rfl rfl rfl rfl rfl rfl rfl rfl rfl rfl rfl rfl rfl _⟩
  · rw [h]
    exact ⟨rfl, commandResult_congr rfl rfl rfl rfl rfl rfl rfl rfl rfl rfl rfl rfl rfl _⟩

end Sys2Proof.Machine
end

section
/-! PROOF. What the registers read and what writes do to them (10_state.md R24 to R35, R43): STATUS and CTRL in every
phase, the constants, and the read-write registers in phase IDLE. -/

namespace Sys2Proof.Machine

/-! ### Bits of words put together from fields -/

theorem toNat_append_eq_add {m n : Nat} (x : BitVec m) (y : BitVec n) :
    (x ++ y).toNat = x.toNat * 2 ^ n + y.toNat := by
  rw [BitVec.toNat_append, ← Nat.shiftLeft_add_eq_or_of_lt y.isLt, Nat.shiftLeft_eq]

/-- The low `n` bits of a word, read back, are the word masked to them. -/
theorem setWidth_extractLsb'_eq_and {n : Nat} {mask : Word} (hmask : ∀ i < 32, mask.getLsbD i = decide (i < n))
    (w : Word) : (w.extractLsb' 0 n).setWidth 32 = w &&& mask := by
  apply BitVec.eq_of_getLsbD_eq
  intro i hi
  simp only [hi, hmask i hi, BitVec.getLsbD_and, BitVec.getLsbD_setWidth, BitVec.getLsbD_extractLsb', Bool.and_comm,
    decide_true, Nat.zero_add, Bool.true_and]

/-- The fields ROWS and COLS of a word, read back, are the word masked to them (10_state.md R35). -/
theorem mdimFields_eq_and (w : Word) :
    (w.extractLsb' 16 6 ++ 0#10 ++ w.extractLsb' 0 6).setWidth 32 = w &&& 0x003F003F#32 := by
  have hmask : ∀ i < 32, (0x003F003F#32).getLsbD i = (decide (i < 6) || decide (16 ≤ i) && decide (i < 22)) := by decide
  apply BitVec.eq_of_getLsbD_eq
  intro i hi
  rw [BitVec.getLsbD_and, hmask i hi]
  simp only [hi, BitVec.getLsbD_setWidth, BitVec.getLsbD_append, BitVec.getLsbD_extractLsb', BitVec.getLsbD_zero,
    decide_true, Bool.true_and, Nat.zero_add]
  rcases Nat.lt_or_ge i 6 with h6 | h6
  · simp [h6]
  rcases Nat.lt_or_ge i 16 with h16 | h16
  · have : i - 6 < 10 := by omega
    simp [this, Nat.not_lt.mpr h6, Nat.not_le.mpr h16]
  · have h10 : ¬i - 6 < 10 := by omega
    have hpos : 16 + (i - 6 - 10) = i := by omega
    have hlt : i - 6 - 10 < 6 ↔ i < 22 := by omega
    simp [h10, hpos, hlt, h16, Nat.not_lt.mpr h6, Bool.and_comm]

/-! ### STATUS -/

section
variable (s : State)

/-- STATUS at the widths of its fields (10_state.md R28). -/
theorem State.statusWord_eq : s.statusWord = (s.errcode ++ 0#3 ++ BitVec.ofBool s.overrun ++ BitVec.ofBool s.error ++
    BitVec.ofBool s.done ++ BitVec.ofBool s.busy ++ BitVec.ofBool s.ready).setWidth 32 := rfl

theorem State.statusWord_done : s.statusWord.getLsbD 2 = s.done := by
  simp only [State.statusWord_eq, BitVec.getLsbD_setWidth, BitVec.getLsbD_append]
  simp

theorem State.statusWord_error : s.statusWord.getLsbD 3 = s.error := by
  simp only [State.statusWord_eq, BitVec.getLsbD_setWidth, BitVec.getLsbD_append]
  simp

theorem State.statusWord_overrun : s.statusWord.getLsbD 4 = s.overrun := by
  simp only [State.statusWord_eq, BitVec.getLsbD_setWidth, BitVec.getLsbD_append]
  simp

theorem State.statusWord_reserved : s.statusWord.extractLsb' 5 3 = 0#3 := by
  simp (disch := decide) only [State.statusWord_eq, BitVec.extractLsb'_setWidth_of_le,
    BitVec.extractLsb'_append_eq_of_le, BitVec.extractLsb'_append_eq_of_add_le]
  rfl

theorem State.statusWord_errcode : s.statusWord.extractLsb' 8 8 = s.errcode := by
  simp (disch := decide) only [State.statusWord_eq, BitVec.extractLsb'_setWidth_of_le,
    BitVec.extractLsb'_append_eq_of_le]
  simp

theorem State.statusWord_upper : s.statusWord.extractLsb' 16 16 = 0#16 := by
  apply BitVec.eq_of_getLsbD_eq
  intro i hi
  simp [State.statusWord]

end

/-! ### Reads -/

/-- A register read whose value is defined returns the register's value (20_memory.md R58). -/
theorem State.hostRead_reg {s : State} {r : Reg}
    (h : s.phase = .idle ∨ (Target.reg r).unspecifiedWhileBusy = false) :
    s.hostRead (regOffset r) = s.setResp (some (.read (s.regValue r) false)) := by
  have hdefined : (s.busy && (Target.reg r).unspecifiedWhileBusy) = false := by
    rcases h with h | h <;> simp [h, State.busy]
  unfold State.hostRead
  rw [target_regOffset]
  simp only [hdefined]
  rfl

theorem State.regValue_ctrl (s : State) : s.regValue .ctrl = if s.irqEn then 0x2#32 else 0x0#32 := by
  have hword : ∀ b : Bool, (BitVec.ofBool b ++ 0#1).setWidth 32 = if b then 0x2#32 else 0x0#32 := by decide
  exact hword s.irqEn

theorem State.toNat_regValue_fieldCfg (s : State) :
    (s.regValue .fieldCfg).toNat = s.params.fieldGen.toNat * 65536 + s.params.fieldPoly.toNat := by
  have h : s.regValue .fieldCfg = 0#8 ++ s.params.fieldGen ++ 0#7 ++ s.params.fieldPoly := rfl
  simp only [h, toNat_append_eq_add]
  simp [Nat.mul_assoc]

/-! ### Writes in phase IDLE -/

/-- A write of a read-only register in phase IDLE is ignored (10_state.md R43). -/
theorem State.writeIdleReg_readOnly {r : Reg} (h : r ∈ [Reg.id, .fieldCfg, .sizeCfg, .result, .rowCount]) (s : State)
    (w : Word) : s.writeIdleReg r w = s := by
  simp only [List.mem_cons, List.not_mem_nil, or_false] at h
  rcases h with rfl | rfl | rfl | rfl | rfl <;> rfl

theorem State.hostWrite_readOnly {r : Reg} (h : r ∈ [Reg.id, .fieldCfg, .sizeCfg, .result, .rowCount]) {s : State}
    (w : Word) (hp : s.phase = .idle) : s.hostWrite (regOffset r) w = s.setResp (some (.write false)) := by
  have hne : r ≠ .ctrl ∧ r ≠ .status := by
    revert r
    decide
  rw [State.hostWrite_idle w hp hne.1 hne.2, State.writeIdleReg_readOnly h]

/-- The read-write registers, each with the mask of its fields (10_state.md R30, R33, R34, R35). -/
def rwFields : List (Reg × Word) :=
  [(.opa, 0x000000FF#32), (.opb, 0x000000FF#32), (.origLen, 0x0000FFFF#32), (.dataChunks, 0x000000FF#32),
    (.codeChunks, 0x000000FF#32), (.valid, 0xFFFFFFFF#32), (.mdim 0, 0x003F003F#32), (.mdim 1, 0x003F003F#32),
    (.mdim 2, 0x003F003F#32), (.mdim 3, 0x003F003F#32)]

theorem ne_of_mem_rwFields : ∀ p ∈ rwFields, p.1 ≠ .ctrl ∧ p.1 ≠ .status ∧ p.1 ≠ .cmd := by decide

theorem State.regValue_writeIdleReg_mdim (s : State) (b : BankId) (w : Word) :
    (s.writeIdleReg (.mdim b) w).regValue (.mdim b) = w &&& 0x003F003F#32 := by
  simp only [State.writeIdleReg, State.regValue, State.mdim_setMdim_same]
  exact mdimFields_eq_and w

/-- A written register reads back masked to its fields. -/
theorem State.regValue_writeIdleReg_same {p : Reg × Word} (h : p ∈ rwFields) (s : State) (w : Word) :
    (s.writeIdleReg p.1 w).regValue p.1 = w &&& p.2 := by
  have h8 : (w.extractLsb' 0 8).setWidth 32 = w &&& 0x000000FF#32 := setWidth_extractLsb'_eq_and (by decide) w
  have h16 : (w.extractLsb' 0 16).setWidth 32 = w &&& 0x0000FFFF#32 := setWidth_extractLsb'_eq_and (by decide) w
  have hfull : w = w &&& 0xFFFFFFFF#32 := BitVec.and_allOnes.symm
  simp only [rwFields, List.mem_cons, List.not_mem_nil, or_false] at h
  rcases h with rfl | rfl | rfl | rfl | rfl | rfl | rfl | rfl | rfl | rfl
  · exact h8
  · exact h8
  · exact h16
  · exact h8
  · exact h8
  · exact hfull
  all_goals exact s.regValue_writeIdleReg_mdim _ w

section
variable (s : State) {q : Reg}

theorem State.regValue_setOpa (v : Byte) (h : q ≠ .opa) : (s.setOpa v).regValue q = s.regValue q := by
  cases q with
  | opa => exact absurd rfl h
  | _ => rfl

theorem State.regValue_setOpb (v : Byte) (h : q ≠ .opb) : (s.setOpb v).regValue q = s.regValue q := by
  cases q with
  | opb => exact absurd rfl h
  | _ => rfl

theorem State.regValue_setOrigLen (v : BitVec 16) (h : q ≠ .origLen) :
    (s.setOrigLen v).regValue q = s.regValue q := by
  cases q with
  | origLen => exact absurd rfl h
  | _ => rfl

theorem State.regValue_setDataChunks (v : Byte) (h : q ≠ .dataChunks) :
    (s.setDataChunks v).regValue q = s.regValue q := by
  cases q with
  | dataChunks => exact absurd rfl h
  | _ => rfl

theorem State.regValue_setCodeChunks (v : Byte) (h : q ≠ .codeChunks) :
    (s.setCodeChunks v).regValue q = s.regValue q := by
  cases q with
  | codeChunks => exact absurd rfl h
  | _ => rfl

theorem State.regValue_setValid (v : Word) (h : q ≠ .valid) : (s.setValid v).regValue q = s.regValue q := by
  cases q with
  | valid => exact absurd rfl h
  | _ => rfl

theorem State.regValue_setMdim (b : BankId) (sh : Shape) (h : q ≠ .mdim b) :
    (s.setMdim b sh).regValue q = s.regValue q := by
  cases q with
  | mdim c => rw [State.regValue, State.regValue, State.mdim_setMdim_ne s b c sh fun hc => h (hc ▸ rfl)]
  | _ => rfl

end

/-- A register write changes no other register; an accepted command word is none, since it sets BUSY. -/
theorem State.regValue_writeIdleReg_ne {r q : Reg} (hcmd : r ≠ .cmd) (h : q ≠ r) (s : State) (w : Word) :
    (s.writeIdleReg r w).regValue q = s.regValue q := by
  cases r with
  | cmd => exact absurd rfl hcmd
  | opa => exact s.regValue_setOpa _ h
  | opb => exact s.regValue_setOpb _ h
  | origLen => exact s.regValue_setOrigLen _ h
  | dataChunks => exact s.regValue_setDataChunks _ h
  | codeChunks => exact s.regValue_setCodeChunks _ h
  | valid => exact s.regValue_setValid _ h
  | mdim b => exact s.regValue_setMdim b _ h
  | _ => rfl

theorem State.readByte_writeIdleReg (s : State) (r : Reg) (w : Word) (a : Nat) :
    (s.writeIdleReg r w).readByte a = s.readByte a := by
  cases r <;> rfl

@[simp] theorem State.regValue_setResp (s : State) (r : Option Response) (q : Reg) :
    (s.setResp r).regValue q = s.regValue q := by
  cases q <;> rfl

/-- A write of a constant register is ignored in phase IDLE and sets OVERRUN else (10_state.md R43, 60_exceptions.md
R155). -/
theorem State.hostWrite_constant {r : Reg} (h : r ∈ [Reg.id, .fieldCfg, .sizeCfg]) (s : State) (w : Word) :
    s.hostWrite (regOffset r) w =
      { s with overrun := s.overrun || decide (s.phase ≠ .idle), resp := some (.write false) } := by
  by_cases hp : s.phase = .idle
  · have hro : r ∈ [Reg.id, .fieldCfg, .sizeCfg, .result, .rowCount] := by
      revert r
      decide
    rw [State.hostWrite_readOnly hro w hp]
    simp [hp, State.setResp]
  · have hne : r ≠ .ctrl ∧ r ≠ .status := by
      revert r
      decide
    rw [State.hostWrite_busy w hp hne.1 hne.2]
    simp [hp, State.setResp, State.dropWrite, State.setOverrun]

/-! ### The obligations -/

/-- Settles O53: the bits one by one; a step that raises irq is the engine's completion or by `State.irq_hostTurn`. -/
theorem statusBitsAndWriteOneToClear : Obligations.StatusBitsAndWriteOneToClear := by
  unfold Obligations.StatusBitsAndWriteOneToClear
  refine ⟨fun s w => ⟨⟨s.statusWord, State.hostRead_reg (r := .status) (.inr rfl), s.statusWord_ready, s.statusWord_busy,
    s.statusWord_done, s.statusWord_error, s.statusWord_overrun, s.statusWord_reserved, s.statusWord_errcode,
    s.statusWord_upper⟩, s.hostWrite_status w, rfl, ?_, ?_⟩, fun s t hstep hs ht => ?_⟩
  · intro hw
    show (s.irqEn && (s.done && !w.getLsbD 2)) = false
    simp [hw]
  · intro hw
    show (s.irqEn && (s.done && !w.getLsbD 2)) = (s.irqEn && s.done)
    rw [hw, Bool.not_false, Bool.and_true]
  · have hne : t.irq ≠ s.irq := by rw [hs, ht]; decide
    rcases step_turn_cases hstep with ⟨hn, rfl⟩ | ⟨hn, he⟩ | ⟨-, rfl⟩
    · obtain ⟨hd, w, rest, hh, h0, h1⟩ := State.irq_hostTurn (s := popTurn s) hs ht
      exact .inr ⟨hd, hn, w, rest, hh, h0, h1⟩
    · rcases engineTurn_cases he with ⟨-, rfl⟩ | ⟨-, rfl⟩ | ⟨hp, rfl⟩
      · exact absurd rfl hne
      · exact absurd rfl hne
      · exact .inl ⟨hp, rfl, hn⟩
    · cases ht

/-- Settles O54, by bit 0 of the word. -/
theorem ctrlWritesInEveryPhase : Obligations.CtrlWritesInEveryPhase := by
  unfold Obligations.CtrlWritesInEveryPhase
  intro s w
  have hwrite : s.hostWrite 0x010#16 w = (s.writeCtrl w).setResp (some (.write false)) := s.hostWrite_ctrl w
  refine ⟨fun h => ?_, fun h => ?_, ?_⟩
  · rw [hwrite, State.writeCtrl_irqEn h]
    exact ⟨rfl, rfl⟩
  · rw [hwrite, State.writeCtrl_softReset h]
    exact ⟨s.softReset_irqEn, s.softReset_phase, s.softReset_overrun, s.softReset_irq⟩
  · rw [← State.regValue_ctrl]
    exact State.hostRead_reg (r := .ctrl) (.inr rfl)

/-- Settles O55: a register write reads back masked and has a frame; a read-only register ignores it. -/
theorem registerWritesReadBackMasked : Obligations.RegisterWritesReadBackMasked := by
  unfold Obligations.RegisterWritesReadBackMasked
  intro s w hp
  refine ⟨fun p hmem => ?_, fun r hr => State.hostWrite_readOnly hr w hp⟩
  change p ∈ rwFields at hmem
  obtain ⟨hctrl, hstatus, hcmd⟩ := ne_of_mem_rwFields p hmem
  have hphase : (s.writeIdleReg p.1 w).phase = .idle := (State.writeIdleReg_phase w hcmd).trans hp
  rw [State.hostWrite_idle w hp hctrl hstatus]
  refine ⟨?_, fun r hr => ?_, fun a => State.readByte_writeIdleReg s p.1 w a, hphase⟩
  · have hread := State.hostRead_reg (s := (s.writeIdleReg p.1 w).setResp (some (.write false))) (r := p.1) (.inl hphase)
    rw [hread, State.regValue_setResp, State.regValue_writeIdleReg_same hmem]
    rfl
  · rw [State.regValue_setResp, State.regValue_writeIdleReg_ne hcmd hr]

/-- Settles O56: the three registers read their constants in every phase, and by `State.hostWrite_constant`. -/
theorem constantRegisters : Obligations.ConstantRegisters := by
  unfold Obligations.ConstantRegisters
  intro s w
  have hread (r : Reg) (h : (Target.reg r).unspecifiedWhileBusy = false) :
      (s.hostRead (regOffset r)).resp = some (.read (s.regValue r) false) :=
    congrArg State.resp (State.hostRead_reg (.inr h))
  refine ⟨hread .id rfl, hread .sizeCfg rfl, ⟨_, hread .fieldCfg rfl, s.toNat_regValue_fieldCfg⟩, fun addr haddr => ?_⟩
  simp only [List.mem_cons, List.not_mem_nil, or_false] at haddr
  rcases haddr with rfl | rfl | rfl
  · exact State.hostWrite_constant (r := .id) (by decide) s w
  · exact State.hostWrite_constant (r := .fieldCfg) (by decide) s w
  · exact State.hostWrite_constant (r := .sizeCfg) (by decide) s w

end Sys2Proof.Machine
end

section
/-! PROOF. The address map and the windows (20_memory.md R51 to R58): which offsets get a bus error, what the buffer words
hold, what a read returns and leaves unchanged; and the inputs of ENCODE (R65). -/

namespace Sys2Proof.Machine

/-! ### Address decode -/

theorem reservedOffset_iff (a : Nat) : reservedOffset a = true ↔
    (0x00C ≤ a ∧ a < 0x010) ∨ (0x01C ≤ a ∧ a < 0x020) ∨ (0x050 ≤ a ∧ a < 0x1000) ∨ (0x2000 ≤ a ∧ a < 0x4000) ∨
    (0x6000 ≤ a ∧ a < 0x8000) ∨ (0xA000 ≤ a ∧ a < 0x10000) := by
  simp [reservedOffset, or_assoc]

/-- The aligned offsets that name no register (10_state.md R23). -/
theorem regAt_eq_none_iff {a : Nat} (hal : a % 4 = 0) : regAt a = none ↔ a = 0x00C ∨ a = 0x01C ∨ 0x050 ≤ a := by
  rcases Nat.lt_or_ge a 0x050 with hlt | hge
  · have hsmall : ∀ a < 0x050, a % 4 = 0 → (regAt a = none ↔ a = 0x00C ∨ a = 0x01C ∨ 0x050 ≤ a) := by decide
    exact hsmall a hlt hal
  · refine iff_of_true ?_ (.inr (.inr hge))
    unfold regAt
    split
    case h_19 => rfl
    all_goals omega

/-- Exactly the misaligned and the reserved offsets are no target (20_memory.md R52, R55). -/
theorem target_eq_none_iff (addr : Addr) :
    target addr = none ↔ addr.toNat % 4 ≠ 0 ∨ reservedOffset addr.toNat = true := by
  have hlt : addr.toNat < 0x10000 := addr.isLt
  by_cases hal : addr.toNat % 4 = 0
  · by_cases hb : Memory.inBuffer addr.toNat = true
    · have hwindow := (Memory.inBuffer_iff _).mp hb
      simp only [target_buffer hal hb, reduceCtorEq, reservedOffset_iff, false_iff]
      omega
    · have hnone : target addr = none ↔ regAt addr.toNat = none := by simp [target, hal, hb]
      rw [Memory.inBuffer_iff] at hb
      rw [hnone, regAt_eq_none_iff hal, reservedOffset_iff]
      omega
  · simp [target, hal]

/-- An aligned buffer offset, as an address, decodes to the buffer word there. -/
theorem target_ofNat_buffer {a : Nat} (hal : a % 4 = 0) (hb : Memory.inBuffer a = true) :
    target (BitVec.ofNat 16 a) = some (.buffer a) := by
  have hwindow := (Memory.inBuffer_iff a).mp hb
  have ha : (BitVec.ofNat 16 a).toNat = a := by
    rw [BitVec.toNat_ofNat]
    exact Nat.mod_eq_of_lt (by omega)
  rw [target_buffer (by rwa [ha]) (by rwa [ha]), ha]

/-! ### Transactions by their target -/

section
variable (s : State) {a : Addr} {t : Target}

theorem State.hostRead_busError (h : target a = none) : s.hostRead a = s.setResp (some (.read 0#32 true)) := by
  unfold State.hostRead
  rw [h]

theorem State.hostWrite_busError (w : Word) (h : target a = none) :
    s.hostWrite a w = s.setResp (some (.write true)) := by
  unfold State.hostWrite
  rw [h]

theorem State.hostWrite_mapped (w : Word) (h : target a = some t) :
    s.hostWrite a w = (s.writeTarget t w).setResp (some (.write false)) := by
  unfold State.hostWrite
  rw [h]

/-- In phase IDLE every mapped read returns the value its target holds (20_memory.md R58). -/
theorem State.hostRead_idle (h : target a = some t) (hp : s.phase = .idle) :
    s.hostRead a = s.setResp (some (.read (s.targetValue t) false)) := by
  have hbusy : s.busy = false := by simp [State.busy, hp]
  unfold State.hostRead
  simp [h, hbusy]

/-- While the phase is not IDLE an unspecified read draws a free value (20_memory.md R58). -/
theorem State.hostRead_unspecified (h : target a = some t) (hp : s.phase ≠ .idle)
    (ht : t.unspecifiedWhileBusy = true) :
    s.hostRead a = { s with resp := some (.read (Config.busyRead s.draws) false), draws := s.draws + 1 } := by
  have hbusy : s.busy = true := s.busy_iff.mpr hp
  unfold State.hostRead
  rw [h]
  simp only [hbusy, ht]
  rfl

/-- A mapped read answers ok and changes the response and the number of draws only (20_memory.md R57). -/
theorem State.hostRead_mapped (h : target a = some t) :
    ∃ v n, s.hostRead a = { s with resp := some (.read v false), draws := n } := by
  unfold State.hostRead
  rw [h]
  by_cases hu : (s.busy && t.unspecifiedWhileBusy) = true
  · exact ⟨_, _, if_pos hu⟩
  · exact ⟨_, s.draws, if_neg hu⟩

end

/-- Settles O50: a bus error is exactly an offset without a target. -/
theorem busErrorsChangeNothing : Obligations.BusErrorsChangeNothing := by
  unfold Obligations.BusErrorsChangeNothing
  intro s addr w
  rw [← target_eq_none_iff]
  refine ⟨fun h => ⟨s.hostRead_busError h, s.hostWrite_busError w h⟩, fun h => ?_⟩
  obtain ⟨t, ht⟩ := Option.ne_none_iff_exists'.mp h
  obtain ⟨v, n, hread⟩ := s.hostRead_mapped ht
  exact ⟨⟨v, by rw [hread]⟩, by rw [s.hostWrite_mapped w ht]; rfl⟩

/-! ### Buffer words -/

theorem State.mem_wordCells {a : Nat} {v : Word} {c : Host.Cell} :
    c ∈ State.wordCells a v ↔ ∃ t < 4, c = (a + t, v.extractLsb' (8 * t) 8) := by
  simp only [State.wordCells, List.mem_cons, List.not_mem_nil, or_false]
  constructor
  · rintro (rfl | rfl | rfl | rfl)
    · exact ⟨0, by omega, rfl⟩
    · exact ⟨1, by omega, rfl⟩
    · exact ⟨2, by omega, rfl⟩
    · exact ⟨3, by omega, rfl⟩
  · rintro ⟨t, ht, rfl⟩
    interval_cases t <;> simp

/-- Byte t of the word written is bits 8t+7..8t (20_memory.md R54). -/
theorem State.readByte_writeBufferWord (s : State) (a : Nat) (v : Word) {t : Nat} (ht : t < 4) :
    (s.writeBufferWord a v).readByte (a + t) = v.extractLsb' (8 * t) 8 := by
  refine State.readByte_storeBytes_of_mem s _ (a + t, v.extractLsb' (8 * t) 8) (State.mem_wordCells.mpr ⟨t, ht, rfl⟩) ?_
  intro d hd hoff
  obtain ⟨u, -, rfl⟩ := State.mem_wordCells.mp hd
  obtain rfl : u = t := Nat.add_left_cancel hoff
  rfl

theorem State.readByte_writeBufferWord_of_ne (s : State) {a b : Nat} (v : Word) (h : ∀ t, t < 4 → b ≠ a + t) :
    (s.writeBufferWord a v).readByte b = s.readByte b := by
  refine State.readByte_storeBytes_of_not_mem s _ b fun c hc => ?_
  obtain ⟨t, ht, rfl⟩ := State.mem_wordCells.mp hc
  exact (h t ht).symm

/-- Settles O51: in phase IDLE the port reads and writes the buffer word at the offset. -/
theorem bufferWordsAreLittleEndian : Obligations.BufferWordsAreLittleEndian := by
  unfold Obligations.BufferWordsAreLittleEndian
  intro s addr v hp hal hb
  have ht := target_buffer hal hb
  have hwrite : s.hostWrite addr v = (s.writeBufferWord addr.toNat v).setResp (some (.write false)) := by
    rw [s.hostWrite_mapped v ht]
    simp only [State.writeTarget, if_pos hp]
  rw [hwrite]
  exact ⟨s.hostRead_idle ht hp, ⟨_, rfl⟩, fun t ht => s.readByte_writeBufferWord _ v ht,
    fun a ha => s.readByte_writeBufferWord_of_ne v ha⟩

/-- Settles O52: the offsets by division with remainder, the decode by the bounds of the windows. -/
theorem windowsHoldTheBuffers : Obligations.WindowsHoldTheBuffers := by
  unfold Obligations.WindowsHoldTheBuffers
  refine ⟨fun b i _ _ => ?_, fun i _ => ⟨rfl, ?_⟩, fun b r c hb hr hc hal => ?_, fun i hi hal => ?_,
    fun j r hj hr hal => ?_⟩
  · unfold bankAddr; omega
  · unfold cwAddr; omega
  · exact target_ofNat_buffer (by unfold bankAddr; omega) (Memory.inBuffer_bankAddr hb hr hc)
  · exact target_ofNat_buffer (by unfold dataAddr; omega) (Memory.inBuffer_dataAddr hi)
  · exact target_ofNat_buffer (by unfold cwAddr; omega) (Memory.inBuffer_cwAddr hj hr)

/-! ### Reads -/

/-- MDIMb holds COLS in bits 21:16 and ROWS in bits 5:0 (10_state.md R35). -/
theorem State.toNat_regValue_mdim (s : State) (b : BankId) :
    (s.regValue (.mdim b)).toNat = (s.mdim b).cols.toNat * 65536 + (s.mdim b).rows.toNat := by
  have hcols := (s.mdim b).cols.isLt
  have hrows := (s.mdim b).rows.isLt
  have h : s.regValue (.mdim b) = ((s.mdim b).cols ++ 0#10 ++ (s.mdim b).rows).setWidth 32 := rfl
  rw [h, BitVec.toNat_setWidth, toNat_append_eq_add, toNat_append_eq_add, BitVec.toNat_ofNat]
  omega

/-- The reads that are unspecified while the phase is not IDLE, by their offsets (20_memory.md R58). -/
theorem exists_unspecified_target {addr : Addr} (hal : addr.toNat % 4 = 0) (h : Memory.inBuffer addr.toNat = true ∨
    addr ∈ [0x028#16, 0x02C#16, 0x03C#16, 0x040#16, 0x044#16, 0x048#16, 0x04C#16]) :
    ∃ t, target addr = some t ∧ t.unspecifiedWhileBusy = true := by
  rcases h with hb | hmem
  · exact ⟨_, target_buffer hal hb, rfl⟩
  · simp only [List.mem_cons, List.not_mem_nil, or_false] at hmem
    rcases hmem with rfl | rfl | rfl | rfl | rfl | rfl | rfl
    all_goals exact ⟨_, rfl, rfl⟩

/-- Settles O57: a read with a target by `State.hostRead_mapped`, a register's value by `State.hostRead_reg`. -/
theorem readsHaveNoSideEffect : Obligations.ReadsHaveNoSideEffect := by
  unfold Obligations.ReadsHaveNoSideEffect
  intro s addr
  have hread (r : Reg) (h : (Target.reg r).unspecifiedWhileBusy = false) :
      s.hostRead (regOffset r) = s.setResp (some (.read (s.regValue r) false)) := State.hostRead_reg (.inr h)
  refine ⟨?_, fun r hr => ?_, fun p hmem => ?_, fun hp => ⟨fun p hmem => ?_, fun b => ?_⟩, fun hp hal h => ?_⟩
  · cases ht : target addr with
    | none => exact ⟨_, s.draws, s.hostRead_busError ht⟩
    | some t =>
      obtain ⟨v, n, h⟩ := s.hostRead_mapped ht
      exact ⟨_, n, h⟩
  · refine State.hostRead_reg (hr.imp_right fun hmem => ?_)
    clear hr
    revert r
    decide
  · simp only [List.mem_cons, List.not_mem_nil, or_false] at hmem
    rcases hmem with rfl | rfl | rfl | rfl | rfl | rfl
    exacts [hread .cmd rfl, hread .opa rfl, hread .opb rfl, hread .origLen rfl, hread .dataChunks rfl,
      hread .codeChunks rfl]
  · simp only [List.mem_cons, List.not_mem_nil, or_false] at hmem
    rcases hmem with rfl | rfl | rfl
    · exact State.hostRead_reg (r := .result) (.inl hp)
    · exact State.hostRead_reg (r := .rowCount) (.inl hp)
    · exact State.hostRead_reg (r := .valid) (.inl hp)
  · exact ⟨_, State.hostRead_reg (r := .mdim b) (.inl hp), s.toNat_regValue_mdim b⟩
  · obtain ⟨t, ht, hu⟩ := exists_unspecified_target hal h
    exact s.hostRead_unspecified ht hp hu

/-! ### The inputs of ENCODE -/

theorem Mat.build_congr {rows cols : Nat} {f g : Nat → Nat → Byte}
    (h : ∀ i j, i < rows → j < cols → f i j = g i j) : Mat.build rows cols f = Mat.build rows cols g := by
  refine List.map_congr_left fun i hi => List.map_congr_left fun j hj => ?_
  exact h i j (List.mem_range.mp hi) (List.mem_range.mp hj)

section
variable {s s' : State} (hp : s'.params = s.params) (hl : s'.origLen = s.origLen)
  (hk : s'.dataChunks = s.dataChunks) (hm : s'.codeChunks = s.codeChunks)
include hl hk

/-- The padded data is made of DATA[0..L-1] (42_reed_solomon.md R131). -/
theorem dataColumns_congr (hd : ∀ p, p < s.len → s'.readByte (dataAddr p) = s.readByte (dataAddr p)) :
    s'.dataColumns = s.dataColumns := by
  unfold State.dataColumns State.rc State.len State.k
  rw [hl, hk]
  refine Mat.build_congr fun c r _ _ => ?_
  by_cases h : r * s.dataChunks.toNat + c < s.origLen.toNat
  · rw [if_pos h, if_pos h, hd _ h]
  · rw [if_neg h, if_neg h]

include hp hm

/-- The inputs of ENCODE are the parameters, k, m, L and DATA[0..L-1] (20_memory.md R65). -/
theorem encodeResult_congr (hd : ∀ p, p < s.len → s'.readByte (dataAddr p) = s.readByte (dataAddr p)) :
    encodeResult s' = encodeResult s := by
  unfold encodeResult codewordColumns State.streamOk State.kmOk State.total State.rc State.len State.k State.m
  rw [dataColumns_congr hl hk hd, hp, hl, hk, hm]

end

/-- The codeword bytes ENCODE leaves are those it computes (42_reed_solomon.md R132). -/
theorem readByte_complete_codeword (x : Mat) (v : Word) (rc : BitVec 16) {rows cols : Nat} (u : State)
    (hcols : cols ≤ 256) {j r : Nat} (hj : j < rows) (hr : r < cols) :
    (complete (.ok (.codeword (matCells rows cols cwAddr x) v rc)) u).readByte (cwAddr j r) = x.entry j r := by
  have hstored : (u.storeBytes (matCells rows cols cwAddr x)).readByte (cwAddr j r) = x.entry j r := by
    refine u.readByte_store_matCells x (fun _ _ _ _ _ hb _ hb' h => ?_) hj hr
    exact Memory.cwAddr_inj (Nat.lt_of_lt_of_le hb hcols) (Nat.lt_of_lt_of_le hb' hcols) h
  rw [complete_ok, applyEffect_codeword, ← hstored]
  exact State.readByte_congr rfl rfl _

/-- Settles O35: both states give ENCODE one result, whose codeword covers every byte compared. -/
theorem encodeReadsOnlyItsData : Obligations.EncodeReadsOnlyItsData := by
  unfold Obligations.EncodeReadsOnlyItsData
  intro s s' t t' hp hl hk hm hd hexec hexec'
  rw [exec_eq] at hexec hexec'
  have hres : instrResult .encode s' = instrResult .encode s := encodeResult_congr hp hl hk hm hd
  rw [hres] at hexec'
  cases hexec
  cases hexec'
  refine ⟨rfl, fun hcode => ?_⟩
  cases he : instrResult .encode s with
  | err k => rw [he] at hcode; exact absurd hcode k.code_ne_zero
  | ok e =>
    obtain ⟨hok, rfl⟩ := encodeResult_ok he
    refine ⟨rfl, rfl, fun j r hj hr => ?_⟩
    rw [readByte_complete_codeword _ _ _ s' (s.rc_le hok) hj hr, readByte_complete_codeword _ _ _ s (s.rc_le hok) hj hr]

end Sys2Proof.Machine
end

section
/-! PROOF. Command words (30_encoding.md): the fields of a word put together and taken apart, decoding and encoding as
inverses of each other, the rows of the opcode map read field by field, and what an illegal word does. -/

namespace Sys2Proof

open Sys2Proof.Machine

/-! ### The fields of a word (30_encoding.md R70) -/

section
variable (b a d : BankField) (op : Byte)

@[simp] theorem opField_cmdw : opField (cmdw b a d op) = op := (Laws.OpcodeInPlace.cmdw_op b a d op).1

@[simp] theorem rsvField_cmdw : rsvField (cmdw b a d op) = 0#12 := (Laws.OpcodeInPlace.cmdw_op b a d op).2

@[simp] theorem dField_cmdw : dField (cmdw b a d op) = d := by
  rw [dField, cmdw, BitVec.extractLsb'_append_eq_of_le (by decide), BitVec.extractLsb'_append_eq_of_add_le (by decide),
    BitVec.extractLsb'_eq_self]

@[simp] theorem aField_cmdw : aField (cmdw b a d op) = a := by
  rw [aField, cmdw, BitVec.extractLsb'_append_eq_of_le (by decide), BitVec.extractLsb'_append_eq_of_le (by decide),
    BitVec.extractLsb'_append_eq_of_add_le (by decide), BitVec.extractLsb'_eq_self]

@[simp] theorem bField_cmdw : bField (cmdw b a d op) = b := by
  rw [bField, cmdw, BitVec.extractLsb'_append_eq_of_le (by decide), BitVec.extractLsb'_append_eq_of_le (by decide),
    BitVec.extractLsb'_append_eq_of_le (by decide), BitVec.extractLsb'_append_eq_of_add_le (by decide),
    BitVec.extractLsb'_eq_self]

end

/-- The five fields of a word cover all its bits. -/
theorem append_fields (w : Word) : rsvField w ++ bField w ++ aField w ++ dField w ++ opField w = w := by
  unfold rsvField bField aField dField opField
  rw [BitVec.extractLsb'_append_extractLsb'_eq_extractLsb' (by decide : 20 = 16 + 4),
    BitVec.extractLsb'_append_extractLsb'_eq_extractLsb' (by decide : 16 = 12 + 4),
    BitVec.extractLsb'_append_extractLsb'_eq_extractLsb' (by decide : 12 = 8 + 4),
    BitVec.extractLsb'_append_extractLsb'_eq_extractLsb' (by decide : 8 = 0 + 8)]
  exact BitVec.extractLsb'_eq_self

theorem cmdw_fields {w : Word} (h : rsvField w = 0#12) :
    cmdw (bField w) (aField w) (dField w) (opField w) = w := by
  have hw := append_fields w
  rwa [h] at hw

/-- Two words are equal when their fields are. -/
theorem word_eq_iff_fields (w v : Word) : w = v ↔ rsvField w = rsvField v ∧ opField w = opField v ∧
    dField w = dField v ∧ aField w = aField v ∧ bField w = bField v := by
  refine ⟨fun h => by simp [h], fun ⟨hr, ho, hd, ha, hb⟩ => ?_⟩
  rw [← append_fields w, hr, ho, hd, ha, hb, append_fields]

/-! ### The decoder and the encoder -/

theorem checkFields_eq_legal {unused : List BankField} {i j : Instr} :
    checkFields unused i = .legal j ↔ (∀ f ∈ unused, f = 0#4) ∧ i.WellFormed = true ∧ i = j := by
  have hall : (unused.all fun f => decide (f = 0#4)) = true ↔ ∀ f ∈ unused, f = 0#4 := by simp
  rw [checkFields, ← hall]
  cases unused.all _ <;> cases i.WellFormed <;> simp

/-- The word of a command decodes to the command when its bank fields are legal, and is rejected for them otherwise. -/
theorem decode_encode (i : Instr) :
    decode (encode i) = if i.WellFormed then .legal i else .illegal .bankOutOfRange := by
  cases i <;> simp [decode, encode, opcode, checkFields]

theorem opField_eq_of_toNat {w : Word} {n : Nat} (h : (opField w).toNat = n) : opField w = BitVec.ofNat 8 n := by
  rw [← h, BitVec.ofNat_toNat, BitVec.setWidth_eq]

/-- A word the decoder accepts has RSV = 0, and its other fields are those of the command's own word. -/
theorem fields_of_decode {w : Word} {i : Instr} (h : decode w = .legal i) :
    i.WellFormed = true ∧ rsvField w = 0#12 ∧ encode i = cmdw (bField w) (aField w) (dField w) (opField w) := by
  unfold decode at h
  split at h
  case isFalse => cases h
  case isTrue hrsv =>
    split at h
    case h_11 => cases h
    all_goals
      rename_i hop
      obtain ⟨hunused, hwf, rfl⟩ := checkFields_eq_legal.mp h
      refine ⟨hwf, hrsv, ?_⟩
      rw [opField_eq_of_toNat hop]
      simp_all [encode, opcode]

/-- Settles O1: the word's fields are the command's, and the check of its used bank fields passes. -/
theorem decodeOfEncode : Obligations.DecodeOfEncode := by
  unfold Obligations.DecodeOfEncode
  intro i hwf
  rw [decode_encode, if_pos hwf]

/-- Settles O2: the command's word has the fields of the word decoded, so it is that word. -/
theorem encodeOfDecode : Obligations.EncodeOfDecode := by
  unfold Obligations.EncodeOfDecode
  intro w i h
  obtain ⟨hwf, hrsv, henc⟩ := fields_of_decode h
  exact ⟨hwf, henc.trans (cmdw_fields hrsv)⟩

/-! ### Legal words (30_encoding.md R73) -/

/-- A used bank field is legal when its bits 3:2 are 0 (30_encoding.md R71). -/
theorem legal_iff_high (f : BankField) : f.legal = true ↔ f.extractLsb' 2 2 = 0#2 := by
  revert f; decide

/-- The mask 0b1100 of a used bank field keeps its bits 3:2. -/
theorem high_iff_mask (f : BankField) : f.extractLsb' 2 2 = 0#2 ↔ f &&& 0xC#4 = 0#4 := by
  revert f; decide

/-- The decoder accepts just the words that meet the conditions of 30_encoding.md R73: RSV = 0 and, opcode by opcode, the
same conditions on the bank fields. -/
theorem legalWord_iff (w : Word) : legalWord w = true ↔ ∃ i, decode w = .legal i := by
  unfold decode legalWord
  by_cases hrsv : rsvField w = 0#12
  case neg => simp [hrsv]
  case pos =>
    simp only [hrsv, if_true, decide_true, Bool.true_and]
    split <;> simp_all [checkFields_eq_legal, Instr.WellFormed, legal_iff_high, and_assoc, and_comm, and_left_comm]

theorem legalWord_eq_false_iff (w : Word) : legalWord w = false ↔ ∃ why, decode w = .illegal why := by
  rw [← Bool.not_eq_true, legalWord_iff]
  cases decode w <;> simp

/-! ### The rows of the opcode map (30_encoding.md R75) -/

/-- A row's match and mask, field by field. -/
theorem OpcodeRow.selects_iff (r : OpcodeRow) (w : Word) : r.selects w = true ↔
    rsvField w &&& rsvField r.maskBits = rsvField r.matchBits ∧
    opField w &&& opField r.maskBits = opField r.matchBits ∧
    dField w &&& dField r.maskBits = dField r.matchBits ∧
    aField w &&& aField r.maskBits = aField r.matchBits ∧
    bField w &&& bField r.maskBits = bField r.matchBits := by
  rw [OpcodeRow.selects, decide_eq_true_eq, word_eq_iff_fields]
  simp only [rsvField, opField, dField, aField, bField, BitVec.extractLsb'_and]

theorem opField_of_selects {r : OpcodeRow} (hr : r ∈ opcodeRows) {w : Word} (h : r.selects w = true) :
    opField w = opField r.matchBits := by
  have hmask : ∀ r ∈ opcodeRows, opField r.maskBits = BitVec.allOnes 8 := by decide
  obtain ⟨-, hop, -⟩ := (r.selects_iff w).mp h
  rwa [hmask r hr, BitVec.and_allOnes] at hop

/-- The rows are pairwise disjoint because their OP values differ (30_encoding.md R76). -/
theorem opcodeRows_disjoint (w : Word) :
    opcodeRows.Pairwise fun r r' => ¬(r.selects w = true ∧ r'.selects w = true) := by
  have hop : opcodeRows.Pairwise fun r r' => opField r.matchBits ≠ opField r'.matchBits := by decide
  refine hop.imp_of_mem fun hr hr' hne ⟨h, h'⟩ => hne ?_
  rw [← opField_of_selects hr h, ← opField_of_selects hr' h']

/-- Some row selects a word just when the word meets the conditions of 30_encoding.md R73. Every mask covers RSV and OP;
what is left of each row is its opcode's condition on the bank fields. -/
theorem exists_selects_iff (w : Word) : (∃ r ∈ opcodeRows, r.selects w = true) ↔ legalWord w = true := by
  have hrsv (x : BitVec 12) : x &&& 0xFFF#12 = x := BitVec.and_allOnes
  have hop (x : Byte) : x &&& 0xFF#8 = x := BitVec.and_allOnes
  have hfield (x : BankField) : x &&& 0xF#4 = x := BitVec.and_allOnes
  simp only [opcodeRows, List.mem_cons, List.not_mem_nil, or_false, exists_eq_or_imp, exists_eq_left,
    OpcodeRow.selects_iff, legalWord, high_iff_mask]
  generalize rsvField w = rsv, opField w = op, dField w = d, aField w = a, bField w = b
  simp only [rsvField, opField, dField, aField, bField, BitVec.reduceExtractLsb', hrsv, hop, hfield,
    ← BitVec.toNat_inj (x := op), BitVec.toNat_ofNat, Nat.reducePow, Nat.one_mod, Nat.reduceMod, Bool.and_eq_true,
    decide_eq_true_eq]
  by_cases h : rsv = 0#12
  case neg => simp [h]
  case pos => split <;> simp_all [and_assoc]

theorem length_filter_selects_le_one (w : Word) : (opcodeRows.filter fun r => r.selects w).length ≤ 1 := by
  have hdisj := (opcodeRows_disjoint w).filter fun r => r.selects w
  have hsel : ∀ r ∈ opcodeRows.filter fun r => r.selects w, r.selects w = true := by simp
  by_contra hlen
  exact List.pairwise_iff_getElem.mp hdisj 0 1 (by omega) (by omega) (by omega)
    ⟨hsel _ (List.getElem_mem _), hsel _ (List.getElem_mem _)⟩

/-- The rows that select a word are one or none, as it meets the conditions of 30_encoding.md R73 or not. -/
theorem length_filter_selects (w : Word) :
    (opcodeRows.filter fun r => r.selects w).length = if legalWord w then 1 else 0 := by
  have hpos : 0 < (opcodeRows.filter fun r => r.selects w).length ↔ legalWord w = true := by
    rw [← exists_selects_iff, List.length_pos_iff_exists_mem]
    simp only [List.mem_filter]
  split
  · next h => exact Nat.le_antisymm (length_filter_selects_le_one w) (hpos.mpr h)
  · next h => exact Nat.eq_zero_of_not_pos (mt hpos.mp h)

/-- Settles O3: the rows that select a word are one or none, as the word meets the conditions of R73 or not. -/
theorem legalExactlyWhenOneRowMatches : Obligations.LegalExactlyWhenOneRowMatches := by
  unfold Obligations.LegalExactlyWhenOneRowMatches
  intro w
  rw [← legalWord_iff, ← legalWord_eq_false_iff, length_filter_selects]
  exact ⟨by simp, by simp, opcodeRows_disjoint w⟩

/-! ### Illegal words and ill-formed commands -/

theorem commandResult_of_not_legalWord {w : Word} (h : legalWord w = false) (s : State) :
    commandResult w s = .err .illegalCmd := by
  obtain ⟨why, hdec⟩ := (legalWord_eq_false_iff w).mp h
  rw [commandResult, hdec]

/-- Completing with ILLEGAL_CMD is the failure with code 0x07 (60_exceptions.md R150). -/
theorem complete_illegalCmd (s : State) : complete (.err .illegalCmd) s = failed 0x07#8 s := complete_err _ s

/-- Settles O5: the engine completes the word in CMD, whose result is ILLEGAL_CMD. -/
theorem illegalWordCompletesWithIllegalCmd : Obligations.IllegalWordCompletesWithIllegalCmd := by
  unfold Obligations.IllegalWordCompletesWithIllegalCmd
  refine ⟨fun w => by simp [length_filter_selects], fun s hphase hturn hword => ?_⟩
  have hcmd : legalWord (popTurn s).cmd = false := hword
  rw [step_of_engineNext hturn, engineTurn_exec (popTurn s) hphase, commandResult_of_not_legalWord hcmd,
    complete_illegalCmd]

/-- Settles O4: the legal words are those of their commands, and the illegal ones are computed. -/
theorem printedWordsDecode : Obligations.PrintedWordsDecode := by
  unfold Obligations.PrintedWordsDecode
  refine ⟨rfl, rfl, rfl, ?_, ?_, ?_, by decide, by decide, by decide⟩
  · exact decodeOfEncode (.mmul 2#4 0#4 1#4) rfl
  · exact decodeOfEncode (.minv 1#4 0#4) rfl
  · exact decodeOfEncode (.genmat 3#4) rfl

theorem bankOf_isSome (f : BankField) : (bankOf f).isSome = f.legal := by
  unfold bankOf BankField.legal Config.nBanks
  split <;> simp_all

/-- A command with an illegal bank field has the result of an illegal word (log 12). -/
theorem instrResult_of_not_wellFormed {i : Instr} (h : i.WellFormed = false) (s : State) :
    instrResult i s = .err .illegalCmd := by
  cases i with
  | mmul d a b =>
    simp only [Instr.WellFormed, ← bankOf_isSome] at h
    rw [instrResult, mmulResult]
    split <;> simp_all
  | minv d a =>
    simp only [Instr.WellFormed, ← bankOf_isSome] at h
    rw [instrResult, minvResult]
    split <;> simp_all
  | genmat d =>
    simp only [Instr.WellFormed, ← bankOf_isSome] at h
    rw [instrResult, genmatResult]
    split <;> simp_all
  | _ => cases h

/-- Settles O6: the bank field that makes the command ill formed names no bank, and the decoder rejects it. -/
theorem illFormedCommandIsIllegal : Obligations.IllFormedCommandIsIllegal := by
  unfold Obligations.IllFormedCommandIsIllegal
  intro i s hwf
  refine ⟨?_, .bankOutOfRange, ?_⟩
  · rw [exec_eq, instrResult_of_not_wellFormed hwf, complete_illegalCmd]
  · rw [decode_encode, hwf]; rfl

end Sys2Proof
end

section
/-! PROOF. The shift-and-reduce product as polynomial arithmetic (40_field.md R90, R97): a polynomial over GF(2) has a
residue byte modulo FIELD_POLY, computed from its coefficients by Horner's rule. Subtracting shifted copies of FIELD_POLY
keeps the residue, a polynomial of degree below 8 is its own residue, and FMULX_fn is the residue of the product. -/

namespace Sys2Proof.Machine

/-- The residue of a polynomial modulo `poly` by Horner's rule: multiply by x and add the next coefficient. -/
def residue (poly : BitVec 9) (r : Nat) : Byte :=
  if r = 0 then 0#8 else xtime poly (residue poly (r / 2)) ^^^ BitVec.ofNat 8 (r % 2)

@[simp] theorem xtime_zero (poly : BitVec 9) : xtime poly 0#8 = 0#8 := by simp [xtime]

@[simp] theorem residue_zero (poly : BitVec 9) : residue poly 0 = 0#8 := by rw [residue, if_pos rfl]

theorem residue_eq (poly : BitVec 9) (r : Nat) :
    residue poly r = xtime poly (residue poly (r / 2)) ^^^ BitVec.ofNat 8 (r % 2) := by
  by_cases h : r = 0
  · simp [h]
  · rw [residue, if_neg h]

theorem residue_xor (poly : BitVec 9) (r t : Nat) : residue poly (r ^^^ t) = residue poly r ^^^ residue poly t := by
  induction r using residue.induct generalizing t with
  | case1 => simp
  | case2 r _ ih =>
    have hmod : (r ^^^ t) % 2 = r % 2 ^^^ t % 2 := Nat.xor_mod_two_pow (n := 1)
    rw [residue_eq poly (r ^^^ t), residue_eq poly r, residue_eq poly t, Nat.xor_div_two, ih, xtime_xor, hmod,
      BitVec.ofNat_xor]
    ac_rfl

theorem residue_two_mul (poly : BitVec 9) (r : Nat) : residue poly (2 * r) = xtime poly (residue poly r) := by
  rw [residue_eq, Nat.mul_div_cancel_left r (by omega), Nat.mul_mod_right, BitVec.xor_zero]

theorem residue_shiftLeft (poly : BitVec 9) (r n : Nat) :
    residue poly (r <<< n) = (xtime poly)^[n] (residue poly r) := by
  induction n with
  | zero => rfl
  | succ n ih => rw [Nat.shiftLeft_succ, residue_two_mul, ih, Function.iterate_succ_apply']

/-- Shifting in the last bit of a number gives the number, in eight bits. -/
theorem shiftLeft_xor_lastBit (r : Nat) : BitVec.ofNat 8 (r / 2) <<< 1 ^^^ BitVec.ofNat 8 (r % 2) = BitVec.ofNat 8 r := by
  refine BitVec.eq_of_getLsbD_eq fun i hi => ?_
  simp only [BitVec.getLsbD_xor, BitVec.getLsbD_shiftLeft, BitVec.getLsbD_ofNat]
  cases i with
  | zero => simp
  | succ i => simp [Nat.testBit_succ, hi, Nat.lt_of_succ_lt hi]

/-- A polynomial of degree below 8 is its own residue. -/
theorem residue_of_lt (poly : BitVec 9) {r : Nat} (hr : r < 2 ^ 8) : residue poly r = BitVec.ofNat 8 r := by
  induction r using residue.induct with
  | case1 => simp
  | case2 r _ ih =>
    have htop : (r / 2).testBit 7 = false := Nat.testBit_lt_two_pow (by omega)
    rw [residue_eq, ih (by omega), xtime, BitVec.getLsbD_ofNat, htop, ← shiftLeft_xor_lastBit r]
    rfl

@[simp] theorem residue_toNat (poly : BitVec 9) (a : Byte) : residue poly a.toNat = a := by
  rw [residue_of_lt poly a.isLt, BitVec.ofNat_toNat, BitVec.setWidth_eq]

/-! ### Division by FIELD_POLY -/

section
variable {poly : BitVec 9} (hdeg : poly.getLsbD 8 = true)
include hdeg

/-- Horner's rule reduces once for FIELD_POLY itself, at its leading bit, and nothing is left. -/
theorem residue_self : residue poly poly.toNat = 0#8 := by
  have htop : (poly.toNat / 2).testBit 7 = true := by rwa [← Nat.testBit_succ]
  have hlow : poly.setWidth 8 = BitVec.ofNat 8 poly.toNat := rfl
  rw [residue_eq, residue_of_lt poly (by omega), xtime, BitVec.getLsbD_ofNat, htop, hlow,
    ← shiftLeft_xor_lastBit poly.toNat]
  simp

theorem log2_fieldPoly : poly.toNat.log2 = 8 := by
  have hge : 2 ^ 8 ≤ poly.toNat := Nat.ge_two_pow_of_testBit hdeg
  exact (Nat.log2_eq_iff (by omega)).mpr ⟨hge, poly.isLt⟩

theorem residue_xor_shiftLeft_fieldPoly (r n : Nat) : residue poly (r ^^^ poly.toNat <<< n) = residue poly r := by
  rw [residue_xor, residue_shiftLeft, residue_self hdeg, Function.iterate_fixed (xtime_zero poly), BitVec.xor_zero]

/-- Division keeps the residue. -/
theorem residue_polyRem (n r : Nat) : residue poly (polyRem poly.toNat n r) = residue poly r := by
  induction n generalizing r with
  | zero => rfl
  | succ n ih =>
    rw [polyRem]
    split
    · rfl
    · rw [ih, residue_xor_shiftLeft_fieldPoly hdeg]

/-- Subtracting FIELD_POLY, shifted so that the leading terms meet, lowers the degree. -/
theorem xor_shiftLeft_fieldPoly_lt {r : Nat} (hr : 8 ≤ r.log2) :
    r ^^^ poly.toNat <<< (r.log2 - 8) < 2 ^ r.log2 := by
  have hr0 : r ≠ 0 := by rintro rfl; simp at hr
  refine Nat.lt_pow_two_of_testBit _ fun i hi => ?_
  rw [Nat.testBit_xor, Nat.testBit_shiftLeft]
  rcases Nat.eq_or_lt_of_le hi with rfl | hlt
  · have hlead : poly.toNat.testBit 8 = true := hdeg
    simp [Nat.testBit_log2 hr0, show r.log2 - (r.log2 - 8) = 8 by omega, hlead]
  · have hr' : r.testBit i = false := Nat.testBit_lt_two_pow ((Nat.log2_lt hr0).mp hlt)
    have hpoly : poly.toNat.testBit (i - (r.log2 - 8)) = false := BitVec.getLsbD_of_ge poly _ (by omega)
    simp [hr', hpoly]

/-- Each subtraction lowers the degree, so the remainder of a polynomial of degree below 8 + n has degree below 8 after
n of them. -/
theorem polyRem_lt {n r : Nat} (hr : r < 2 ^ (8 + n)) : polyRem poly.toNat n r < 2 ^ 8 := by
  induction n generalizing r with
  | zero => exact hr
  | succ n ih =>
    rw [polyRem, log2_fieldPoly hdeg]
    split
    case isTrue hsmall =>
      rcases hsmall with hlog | rfl
      · exact Nat.lt_of_lt_of_le Nat.lt_log2_self (Nat.pow_le_pow_right (by omega) (by omega))
      · omega
    case isFalse hbig =>
      obtain ⟨hlog, hr0⟩ := not_or.mp hbig
      have hle : r.log2 < 8 + n + 1 := (Nat.log2_lt hr0).mpr hr
      exact ih (Nat.lt_of_lt_of_le (xor_shiftLeft_fieldPoly_lt hdeg (by omega))
        (Nat.pow_le_pow_right (by omega) (by omega)))

/-- Polynomial division leaves the residue. -/
theorem polyRem_eq_residue {n r : Nat} (hr : r < 2 ^ (8 + n)) : polyRem poly.toNat n r = (residue poly r).toNat := by
  rw [← residue_polyRem hdeg n r, residue_of_lt poly (polyRem_lt hdeg hr), BitVec.toNat_ofNat,
    Nat.mod_eq_of_lt (polyRem_lt hdeg hr)]

end

/-! ### The product of polynomials -/

theorem clmulBits_lt {a k : Nat} (ha : a < 2 ^ k) (b n : Nat) : clmulBits a b n < 2 ^ (k + n) := by
  induction n with
  | zero => exact Nat.two_pow_pos _
  | succ n ih =>
    have hterm : a <<< n < 2 ^ (k + n) := by
      rw [Nat.shiftLeft_eq, Nat.pow_add]
      exact Nat.mul_lt_mul_of_pos_right ha (Nat.two_pow_pos n)
    have hif : (if b.testBit n then a <<< n else 0) < 2 ^ (k + n) := by
      split
      · exact hterm
      · exact Nat.two_pow_pos _
    exact Nat.lt_trans (Nat.xor_lt_two_pow hif ih) (Nat.pow_lt_pow_right (by omega) (by omega))

/-- The last of n + 1 turns of the loop of FMULX_fn adds x^n times the register x for bit n of y. -/
theorem fmulxLoop_succ_last (poly : BitVec 9) (n : Nat) (p x y : Byte) :
    fmulxLoop poly (n + 1) p x y =
      (if y.getLsbD n then (xtime poly)^[n] x else 0#8) ^^^ fmulxLoop poly n p x y := by
  induction n generalizing p x y with
  | zero =>
    rw [fmulxLoop, fmulxLoop, fmulxLoop]
    split
    · exact BitVec.xor_comm p x
    · exact (BitVec.zero_xor).symm
  | succ n ih =>
    rw [fmulxLoop, ih, fmulxLoop, BitVec.getLsbD_ushiftRight, Nat.add_comm 1, Function.iterate_succ_apply]

/-- The loop computes the residue of the product, bit by bit of the second factor. -/
theorem residue_clmulBits (poly : BitVec 9) (a b : Byte) (n : Nat) :
    residue poly (clmulBits a.toNat b.toNat n) = fmulxLoop poly n 0#8 a b := by
  induction n with
  | zero => exact residue_zero poly
  | succ n ih =>
    rw [clmulBits, residue_xor, ih, fmulxLoop_succ_last, apply_ite (residue poly), residue_shiftLeft, residue_toNat,
      residue_zero, BitVec.testBit_toNat]

/-- FMULX_fn is polynomial multiplication modulo FIELD_POLY (40_field.md R90). -/
theorem fmulx_toNat_eq_polyRem {P : Params} (hdeg : P.fieldPoly.getLsbD 8 = true) (a b : Byte) :
    (fmulx P a b).toNat = polyRem P.fieldPoly.toNat 16 (clmul a b) := by
  have hlt : clmul a b < 2 ^ (8 + 16) :=
    Nat.lt_trans (clmulBits_lt a.isLt b.toNat 8) (Nat.pow_lt_pow_right (by omega) (by omega))
  rw [polyRem_eq_residue hdeg hlt, clmul, residue_clmulBits, fmulx]

/-! ### The commands that read no table -/

/-- A field command that succeeds writes RESULT and STATUS only (40_field.md R98). -/
theorem complete_result (r : Byte) (s : State) : complete (.ok (.result r)) s = succeeded { s with result := r } :=
  complete_ok _ s

/-- Settles O12: FMULX_fn is the residue of the product, and polynomial division leaves the residue. -/
theorem fmulxWritesPolynomialProduct : Obligations.FmulxWritesPolynomialProduct := by
  unfold Obligations.FmulxWritesPolynomialProduct
  refine ⟨rfl, fun s => ⟨?_, fun hdeg => fmulx_toNat_eq_polyRem hdeg s.opa s.opb⟩⟩
  rw [exec_eq, instrResult, fmulxResult, complete_result]

/-- Settles O8: FADD's result is a RESULT write of the sum, which is the bitwise xor. -/
theorem faddWritesXor : Obligations.FaddWritesXor := by
  unfold Obligations.FaddWritesXor
  refine ⟨rfl, fun s => ?_⟩
  rw [exec_eq, instrResult, faddResult, complete_result, fadd]

end Sys2Proof.Machine
end

section
/-! PROOF. The laws of the field (40_field.md R92, R99 to R102), for all parameters that meet their constraint: the tables
as inverse maps, the entries that are read, and the laws carried over from FMULX_fn. -/

namespace Sys2Proof.Machine

/-! ### The entries that the field functions read (40_field.md R92) -/

section
variable {T U : Tables} (hexp : ∀ i, i ≤ 254 → T.expAt i = U.expAt i)
include hexp

/-- An index reduced mod 255 does not reach EXP[255]. -/
theorem expAt_mod_congr (n : Nat) : T.expAt (n % 255) = U.expAt (n % 255) := hexp _ (by omega)

variable (hlog : ∀ x, x ≠ 0#8 → T.logAt x = U.logAt x)
include hlog

/-- A product of nonzero operands reads their logarithms and an index reduced mod 255, and other products read nothing. -/
theorem fmul_congr_entries (a b : Byte) : fmul T a b = fmul U a b := by
  unfold fmul
  split
  case isTrue => rfl
  case isFalse hne =>
    obtain ⟨ha, hb⟩ := not_or.mp hne
    rw [hlog a ha, hlog b hb, expAt_mod_congr hexp]

theorem fquot_congr_entries (a : Byte) {b : Byte} (hb : b ≠ 0#8) : fquot T a b = fquot U a b := by
  unfold fquot
  split
  case isTrue => rfl
  case isFalse ha => rw [hlog a ha, hlog b hb, expAt_mod_congr hexp]

/-- The divisor is tested before its logarithm is read. -/
theorem fdiv_congr_entries (a b : Byte) : fdiv T a b = fdiv U a b := by
  unfold fdiv
  split
  case isTrue => rfl
  case isFalse hb => rw [fquot_congr_entries hexp hlog a hb]

theorem finv_congr_entries (a : Byte) : finv T a = finv U a := by
  unfold finv
  split
  case isTrue => rfl
  case isFalse ha => rw [hlog a ha, expAt_mod_congr hexp]

end

section
variable {P : Params} (hP : primitive P = true)
include hP

theorem expAt_of_le {i : Nat} (hi : i ≤ 254) : (tables P).expAt i = genPow P i := by
  rw [← expAt_mod hP, Nat.mod_eq_of_lt (by omega)]

theorem expAt_logAt {x : Byte} (hx : x ≠ 0#8) : (tables P).expAt ((tables P).logAt x) = x := by
  rw [expAt_of_le hP (Nat.le_pred_of_lt (logAt_lt hP hx)), genPow_logAt hP hx]

theorem logAt_expAt {i : Nat} (hi : i ≤ 254) : (tables P).logAt ((tables P).expAt i) = i := by
  rw [expAt_of_le hP hi, logAt_genPow hP (by omega)]

end

/-- Settles O14: EXP[i] is the power i of FIELD_GEN and LOG its exponent, and every index that is read is in range. -/
theorem tablesAreInverse : Obligations.TablesAreInverse := by
  unfold Obligations.TablesAreInverse
  intro P hok
  have hP := primitive_of_ok hok
  exact ⟨fun _ => expAt_logAt hP, logAt_one hP, fun _ => logAt_expAt hP, fun T hexp hlog a b =>
    ⟨fmul_congr_entries hexp hlog a b, fdiv_congr_entries hexp hlog a b, finv_congr_entries hexp hlog a⟩⟩

/-! ### Addition and multiplication (40_field.md R99, R100) -/

theorem fadd_laws (a b c : Byte) :
    fadd a b = fadd b a ∧ fadd (fadd a b) c = fadd a (fadd b c) ∧ fadd a 0#8 = a ∧ fadd a a = 0#8 :=
  ⟨BitVec.xor_comm a b, BitVec.xor_assoc a b c, BitVec.xor_zero, BitVec.xor_self⟩

theorem fmulx_xor_right (P : Params) (a b c : Byte) : fmulx P a (b ^^^ c) = fmulx P a b ^^^ fmulx P a c := by
  rw [fmulx_comm, fmulx_xor_left, fmulx_comm P b, fmulx_comm P c]

/-- Settles O16: the table product is FMULX_fn, a commutative product without zero divisors that distributes over the
sum. -/
theorem additionAndMultiplicationLaws : Obligations.AdditionAndMultiplicationLaws := by
  unfold Obligations.AdditionAndMultiplicationLaws
  refine ⟨fadd_laws, fun P hok a b c => ?_⟩
  have hP := primitive_of_ok hok
  simp only [fmul_eq_fmulx hP, fadd]
  refine ⟨fmulx_comm P a b, fmulx_assoc P a b c, fmulx_one_right P a, fmulx_zero_right P a, fmulx_xor_right P a b c,
    fun h0 => ?_⟩
  by_contra hne
  obtain ⟨ha, hb⟩ := not_or.mp hne
  exact fmulx_ne_zero hP ha hb h0

/-! ### Division and inverse (40_field.md R101, R102): the inverse of a nonzero byte is written as the quotient of 1 -/

theorem fdiv_of_ne_zero (T : Tables) (a : Byte) {b : Byte} (hb : b ≠ 0#8) : fdiv T a b = some (fquot T a b) :=
  if_neg hb

section
variable {P : Params} (hP : primitive P = true)
include hP

theorem finv_of_ne_zero {a : Byte} (ha : a ≠ 0#8) : finv (tables P) a = some (fquot (tables P) 0x01#8 a) := by
  rw [finv_eq_fdiv_one hP, fdiv_of_ne_zero _ _ ha]

/-- The quotient is the one solution q of q ⊗ b = a. -/
theorem fquot_eq_of_fmulx {a b q : Byte} (hb : b ≠ 0#8) (h : fmulx P q b = a) : fquot (tables P) a b = q :=
  fmulx_right_cancel hP hb ((fmulx_fquot hP a hb).trans h.symm)

theorem fquot_eq_fmulx_fquot_one (a : Byte) {b : Byte} (hb : b ≠ 0#8) :
    fquot (tables P) a b = fmulx P a (fquot (tables P) 0x01#8 b) :=
  fquot_eq_of_fmulx hP hb (by rw [fmulx_assoc, fmulx_fquot hP _ hb, fmulx_one_right])

theorem fquot_one_ne_zero {a : Byte} (ha : a ≠ 0#8) : fquot (tables P) 0x01#8 a ≠ 0#8 := by
  intro h0
  have hinv := fmulx_fquot hP 0x01#8 ha
  rw [h0, fmulx_zero_left] at hinv
  exact absurd hinv (by decide)

theorem fquot_one_fquot_one {a : Byte} (ha : a ≠ 0#8) : fquot (tables P) 0x01#8 (fquot (tables P) 0x01#8 a) = a :=
  fquot_eq_of_fmulx hP (fquot_one_ne_zero hP ha) (by rw [fmulx_comm, fmulx_fquot hP _ ha])

end

/-- Settles O17: the quotient is the one solution of its equation, and the inverse is the quotient of 1. -/
theorem divisionAndInverseLaws : Obligations.DivisionAndInverseLaws := by
  unfold Obligations.DivisionAndInverseLaws
  intro P hok
  have hP := primitive_of_ok hok
  simp only [fmul_eq_fmulx hP]
  refine ⟨fun a b ha hb => ?_, fun a b hb => ⟨_, fdiv_of_ne_zero _ a hb, fmulx_fquot hP a hb⟩,
    fun a => ⟨fmulx_zero_right P a, BitVec.xor_self⟩⟩
  have hinv := fmulx_fquot hP 0x01#8 ha
  refine ⟨_, _, finv_of_ne_zero hP ha, finv_of_ne_zero hP hb, ?_, hinv, ?_, ?_, ?_⟩
  · rw [fdiv_of_ne_zero _ a hb, fquot_eq_fmulx_fquot_one hP a hb]
  · rw [fmulx_comm, hinv]
  · rw [finv_of_ne_zero hP (fquot_one_ne_zero hP ha), fquot_one_fquot_one hP ha]
  · rw [fdiv_of_ne_zero _ _ hb, fquot, if_pos rfl]

end Sys2Proof.Machine
end

section
/-! PROOF. The bytes as a field of characteristic 2, in which claims about sums, products and determinants of bytes are
proved with Mathlib's theory of fields and matrices (40_field.md R99 to R102, 41_matrix.md R111, R118). -/

namespace Sys2Proof.Machine

/-- The bytes, as a type of their own for the field operations that `P` gives. -/
def GF (_ : Params) : Type := Byte

/-- The bytes with FADD_fn and FMULX_fn are a field when FIELD_GEN is primitive (40_field.md R99 to R102). -/
@[reducible] def gfField {P : Params} (hP : primitive P = true) : Field (GF P) :=
  let _ : Add (GF P) := ⟨fadd⟩
  let _ : Mul (GF P) := ⟨fmulx P⟩
  let _ : Neg (GF P) := ⟨id⟩
  let _ : Inv (GF P) := ⟨fun a : Byte => if a = 0#8 then 0#8 else fquot (tables P) 0x01#8 a⟩
  let _ : Zero (GF P) := ⟨0#8⟩
  let _ : One (GF P) := ⟨0x01#8⟩
  Field.ofMinimalAxioms (GF P)
    (add_assoc := BitVec.xor_assoc)
    (zero_add := fun _ => BitVec.zero_xor)
    (neg_add_cancel := fun _ => BitVec.xor_self)
    (mul_assoc := fmulx_assoc P)
    (mul_comm := fmulx_comm P)
    (one_mul := fmulx_one_left P)
    (mul_inv_cancel := fun a ha =>
      (congrArg (fmulx P a) (if_neg ha)).trans ((fmulx_comm P _ _).trans (fmulx_fquot hP _ ha)))
    (inv_zero := if_pos rfl)
    (left_distrib := fmulx_xor_right P)
    (exists_pair_ne := ⟨0x01#8, 0#8, (by decide : (0x01#8 : Byte) ≠ 0#8)⟩)

/-- The map takes the operations of the tables to those of a field. -/
structure RespectsField (T : Tables) {F : Type} [Field F] (φ : Byte → F) : Prop where
  injective : Function.Injective φ
  map_one : φ 0x01#8 = 1
  map_fadd : ∀ a b, φ (fadd a b) = φ a + φ b
  map_fmul : ∀ a b, φ (fmul T a b) = φ a * φ b
  map_fquot : ∀ a b, b ≠ 0#8 → φ (fquot T a b) = φ a / φ b

/-- So a claim about matrices of bytes can be proved in a field of characteristic 2. -/
theorem exists_respectsField {P : Params} (hP : primitive P = true) :
    ∃ (F : Type) (_ : Field F) (_ : CharP F 2) (φ : Byte → F), RespectsField (tables P) φ := by
  let K := gfField hP
  have htwo : (2 : GF P) = 0 := one_add_one_eq_two.symm.trans BitVec.xor_self
  refine ⟨GF P, K, CharTwo.of_one_ne_zero_of_two_eq_zero one_ne_zero htwo, id,
    ⟨fun _ _ h => h, rfl, fun _ _ => rfl, fmul_eq_fmulx hP, fun a b hb => ?_⟩⟩
  have hne : @Ne (GF P) b 0 := hb
  exact eq_div_of_mul_eq hne (fmulx_fquot hP a hb)

/-! ### The values of sums, products and powers -/

section
variable {T : Tables} {F : Type} [Field F] {φ : Byte → F} (hφ : RespectsField T φ)
include hφ

theorem RespectsField.map_zero : φ 0#8 = 0 :=
  left_eq_add.mp (hφ.map_fadd 0#8 0#8)

theorem RespectsField.map_eq_zero_iff {a : Byte} : φ a = 0 ↔ a = 0#8 := by
  rw [← hφ.map_zero, hφ.injective.eq_iff]

theorem RespectsField.map_ne_zero {a : Byte} (ha : a ≠ 0#8) : φ a ≠ 0 := mt hφ.map_eq_zero_iff.mp ha

theorem RespectsField.map_delta (i j : Nat) : φ (delta i j) = if i = j then 1 else 0 := by
  rw [delta, apply_ite φ, hφ.map_one, hφ.map_zero]

theorem RespectsField.map_fsum (l : List Byte) : φ (fsum l) = (l.map φ).sum := by
  induction l with
  | nil => exact hφ.map_zero
  | cons a l ih => exact (hφ.map_fadd a (fsum l)).trans (congrArg (φ a + ·) ih)

theorem RespectsField.map_fprod (l : List Byte) : φ (fprod T l) = (l.map φ).prod := by
  induction l with
  | nil => exact hφ.map_one
  | cons a l ih => exact (hφ.map_fmul a (fprod T l)).trans (congrArg (φ a * ·) ih)

theorem RespectsField.map_fsum_range (n : Nat) (f : Nat → Byte) :
    φ (fsum ((List.range n).map f)) = ∑ i ∈ Finset.range n, φ (f i) := by
  rw [hφ.map_fsum, List.map_map]
  rfl

theorem RespectsField.map_fpow (x : Byte) (e : Nat) : φ (fpow T x e) = φ x ^ e := by
  induction e with
  | zero => rw [fpow, hφ.map_one, pow_zero]
  | succ e ih => rw [fpow, hφ.map_fmul, ih, pow_succ']

end

/-! ### Matrices of bytes -/

/-- The n × n matrix over the field with the bytes `f i j`. -/
def byteMatrix {F : Type} (φ : Byte → F) (n : Nat) (f : Nat → Nat → Byte) : Matrix (Fin n) (Fin n) F :=
  Matrix.of fun i j => φ (f i j)

@[simp] theorem byteMatrix_apply {F : Type} (φ : Byte → F) {n : Nat} (f : Nat → Nat → Byte) (i j : Fin n) :
    byteMatrix φ n f i j = φ (f i j) := rfl

theorem byteMatrix_congr {F : Type} (φ : Byte → F) {n : Nat} {f g : Nat → Nat → Byte}
    (h : ∀ i j, i < n → j < n → f i j = g i j) : byteMatrix φ n f = byteMatrix φ n g := by
  ext i j
  rw [byteMatrix_apply, byteMatrix_apply, h i j i.isLt j.isLt]

/-- `X Y = I` for n × n matrices of bytes (41_matrix.md R118). -/
def IsInverse (T : Tables) (n : Nat) (X Y : Nat → Nat → Byte) : Prop :=
  ∀ i j, i < n → j < n → fsum ((List.range n).map fun x => fmul T (X i x) (Y x j)) = delta i j

theorem RespectsField.mul_eq_one_iff {T : Tables} {F : Type} [Field F] {φ : Byte → F} (hφ : RespectsField T φ)
    {n : Nat} {X Y : Nat → Nat → Byte} : byteMatrix φ n X * byteMatrix φ n Y = 1 ↔ IsInverse T n X Y := by
  have hentry (i j : Fin n) : (byteMatrix φ n X * byteMatrix φ n Y) i j = (1 : Matrix (Fin n) (Fin n) F) i j ↔
      fsum ((List.range n).map fun x => fmul T (X i x) (Y x j)) = delta i j := by
    rw [← hφ.injective.eq_iff, hφ.map_fsum_range, hφ.map_delta, Finset.sum_range, Matrix.mul_apply, Matrix.one_apply]
    simp only [hφ.map_fmul, byteMatrix_apply, Fin.ext_iff]
  rw [← Matrix.ext_iff]
  exact ⟨fun h i j hi hj => (hentry ⟨i, hi⟩ ⟨j, hj⟩).mp (h _ _), fun h i j => (hentry i j).mpr (h i j i.isLt j.isLt)⟩

/-! ### The determinant -/

/-- The minor without row 0 and column `j`. -/
theorem Mat.entry_minor (a : Mat) (j i c : Nat) :
    Mat.entry ((a.drop 1).map fun row => row.eraseIdx j) i c = a.entry (i + 1) (if c < j then c else c + 1) := by
  have hrow : ((a.drop 1).map fun row => row.eraseIdx j).getD i [] = (a.getD (i + 1) []).eraseIdx j := by
    rw [show ([] : List Byte) = [].eraseIdx j from rfl, List.getD_map]
    simp
  rw [Mat.entry, hrow, Mat.entry]
  simp only [List.getD_eq_getElem?_getD, List.getElem?_eraseIdx]
  split <;> rfl

/-- The expansion along the first row is the determinant: in characteristic 2 it has no signs. -/
theorem RespectsField.map_det {T : Tables} {F : Type} [Field F] [CharP F 2] {φ : Byte → F} (hφ : RespectsField T φ)
    (n : Nat) (a : Mat) : φ (det T n a) = (byteMatrix φ n a.entry).det := by
  induction n generalizing a with
  | zero => rw [Matrix.det_fin_zero]; exact hφ.map_one
  | succ n ih =>
    rw [det, hφ.map_fsum_range, Finset.sum_range, Matrix.det_succ_row_zero]
    refine Finset.sum_congr rfl fun j _ => ?_
    have hminor : byteMatrix φ n (Mat.entry ((a.drop 1).map fun row => row.eraseIdx j)) =
        (byteMatrix φ (n + 1) a.entry).submatrix Fin.succ j.succAbove := by
      ext i c
      rw [byteMatrix_apply, Mat.entry_minor, Matrix.submatrix_apply, byteMatrix_apply]
      congr 2
      simp only [Fin.succAbove, Fin.lt_def, Fin.val_castSucc]
      split <;> rfl
    rw [hφ.map_fmul, ih, hminor, CharTwo.neg_eq, one_pow, one_mul]
    rfl

end Sys2Proof.Machine
end

section
/-! PROOF. Gauss-Jordan elimination (41_matrix.md R112): it adds no solution to the linear system of the rows of
`[A | I]`, so where it ends with `[I | X]` each column of X is taken by A to a unit vector, and where it finds no pivot
A takes a nonzero vector to 0. -/

namespace Sys2Proof.Machine

/-! ### Rows and entries -/

/-- The list holds the rows of an `n × m` matrix. -/
structure Mat.HasShape (a : Mat) (n m : Nat) : Prop where
  rows : a.length = n
  cols : ∀ r, r < n → (a.getD r []).length = m

theorem Mat.hasShape_build (n m : Nat) (f : Nat → Nat → Byte) : (Mat.build n m f).HasShape n m :=
  ⟨by simp [Mat.build], fun r hr => by simp [Mat.build, hr]⟩

theorem row_swapRows {aug : Mat} {p q : Nat} (hp : p < aug.length) (hq : q < aug.length) (r : Nat) :
    (swapRows aug p q).getD r [] = aug.getD (Equiv.swap p q r) [] := by
  by_cases hrq : r = q
  · subst hrq
    simp [swapRows, hq]
  · by_cases hrp : r = p
    · subst hrp
      simp [swapRows, hp, Ne.symm hrq]
    · rw [Equiv.swap_apply_of_ne_of_ne hrp hrq]
      simp [swapRows, Ne.symm hrq, Ne.symm hrp]

theorem entry_swapRows {aug : Mat} {p q : Nat} (hp : p < aug.length) (hq : q < aug.length) (r j : Nat) :
    (swapRows aug p q).entry r j = aug.entry (Equiv.swap p q r) j :=
  congrArg (fun row => row.getD j 0#8) (row_swapRows hp hq r)

theorem swap_lt {n p q r : Nat} (hp : p < n) (hq : q < n) (hr : r < n) : Equiv.swap p q r < n := by
  rw [Equiv.swap_apply_def]
  split_ifs <;> assumption

theorem hasShape_swapRows {aug : Mat} {n m p q : Nat} (h : aug.HasShape n m) (hp : p < n) (hq : q < n) :
    (swapRows aug p q).HasShape n m := by
  refine ⟨by simp only [swapRows, List.length_set, h.rows], fun r hr => ?_⟩
  rw [row_swapRows (h.rows ▸ hp) (h.rows ▸ hq)]
  exact h.cols _ (swap_lt hp hq hr)

theorem row_eliminate (T : Tables) {n r : Nat} (col : Nat) (aug : Mat) (hr : r < n) :
    (eliminate T n col aug).getD r [] =
      let prow := (aug.getD col []).map fun x => fquot T x (aug.entry col col)
      if r = col then prow
      else List.zipWith (fun x y => fadd x (fmul T (aug.entry r col) y)) (aug.getD r []) prow := by
  simp [eliminate, hr]

section
variable {aug : Mat} {n m col : Nat} (h : aug.HasShape n m) (hcol : col < n) (T : Tables)
include h hcol

theorem hasShape_eliminate : (eliminate T n col aug).HasShape n m := by
  refine ⟨by simp [eliminate], fun r hr => ?_⟩
  rw [row_eliminate T col aug hr]
  simp only
  split
  · rw [List.length_map, h.cols col hcol]
  · rw [List.length_zipWith, List.length_map, h.cols col hcol, h.cols r hr, Nat.min_self]

/-- The pivot row is divided by its pivot, and every other row loses its multiple of that. -/
theorem entry_eliminate {r j : Nat} (hr : r < n) (hj : j < m) :
    (eliminate T n col aug).entry r j =
      if r = col then fquot T (aug.entry col j) (aug.entry col col)
      else fadd (aug.entry r j) (fmul T (aug.entry r col) (fquot T (aug.entry col j) (aug.entry col col))) := by
  have hrow (i : Nat) (hi : i < n) : j < (aug.getD i []).length := (h.cols i hi).symm ▸ hj
  have hentry (i : Nat) (hi : i < n) : (aug.getD i [])[j]? = some (aug.entry i j) := by
    rw [Mat.entry, List.getD_eq_getElem _ _ (hrow i hi), List.getElem?_eq_getElem (hrow i hi)]
  rw [Mat.entry, row_eliminate T col aug hr, List.getD_eq_getElem?_getD]
  split
  · rw [List.getElem?_map, hentry col hcol]; rfl
  · rw [List.getElem?_zipWith, List.getElem?_map, hentry col hcol, hentry r hr]; rfl

end

theorem pivotRow_eq_some {n col p : Nat} {aug : Mat} (h : pivotRow n col aug = some p) :
    col ≤ p ∧ p < n ∧ aug.entry p col ≠ 0#8 := by
  have hmem := List.mem_range'_1.mp (List.mem_of_find?_eq_some h)
  have hne := List.find?_some (p := fun r => decide (aug.entry r col ≠ 0#8)) h
  exact ⟨hmem.1, by omega, of_decide_eq_true hne⟩

theorem pivotRow_eq_none {n col : Nat} {aug : Mat} (h : pivotRow n col aug = none) {r : Nat} (hcol : col ≤ r)
    (hr : r < n) : aug.entry r col = 0#8 := by
  simpa using List.find?_eq_none.mp h r (List.mem_range'_1.mpr ⟨hcol, by omega⟩)

/-! ### The linear system of the rows -/

section
variable {F : Type} [Field F] (φ : Byte → F)

/-- `z` solves the homogeneous system whose equations are the first `n` rows of `aug`, each of `m` coefficients. -/
def IsSolution (n m : Nat) (aug : Mat) (z : Nat → F) : Prop :=
  ∀ r, r < n → ∑ j ∈ Finset.range m, φ (aug.entry r j) * z j = 0

/-- What the elimination of 41_matrix.md R112 has done before column `col`: the columns below `col` are those of the
identity matrix, and no solution came in that `start` does not have. -/
structure Eliminated (n m : Nat) (start : Mat) (col : Nat) (aug : Mat) : Prop where
  shape : aug.HasShape n m
  unit_cols : ∀ r j, r < n → j < col → φ (aug.entry r j) = if r = j then 1 else 0
  solves : ∀ z, IsSolution φ n m aug z → IsSolution φ n m start z

end

section
variable {F : Type} [Field F] {φ : Byte → F} {n m col : Nat} {start aug : Mat}

/-- Rows from `col` on are exchanged, where the columns before `col` are 0. -/
theorem Eliminated.swap_pivot {p : Nat} (h : Eliminated φ n m start col aug) (hcol : col ≤ p) (hp : p < n) :
    Eliminated φ n m start col (swapRows aug p col) := by
  have hplen : p < aug.length := h.shape.rows ▸ hp
  have hclen : col < aug.length := Nat.lt_of_le_of_lt hcol hplen
  have hc : col < n := Nat.lt_of_le_of_lt hcol hp
  refine ⟨hasShape_swapRows h.shape hp hc, fun r j hr hj => ?_, fun z hz => h.solves z fun r hr => ?_⟩
  · rw [entry_swapRows hplen hclen, h.unit_cols _ j (swap_lt hp hc hr) hj]
    refine if_congr ?_ rfl rfl
    rw [Equiv.swap_apply_def]
    split_ifs <;> omega
  · have hrow := hz (Equiv.swap p col r) (swap_lt hp hc hr)
    simpa only [entry_swapRows hplen hclen, Equiv.swap_apply_self] using hrow

/-- The unit columns pick the unknown of their row. -/
theorem Eliminated.sum_unit_cols (h : Eliminated φ n m start col aug) {r : Nat} (hr : r < n) (z : Nat → F) :
    ∑ j ∈ Finset.range col, φ (aug.entry r j) * z j = if r < col then z r else 0 := by
  calc ∑ j ∈ Finset.range col, φ (aug.entry r j) * z j = ∑ j ∈ Finset.range col, if r = j then z j else 0 := by
        refine Finset.sum_congr rfl fun j hj => ?_
        rw [h.unit_cols r j hr (Finset.mem_range.mp hj), ite_mul, one_mul, zero_mul]
    _ = if r < col then z r else 0 := by simp

variable {T : Tables} (hφ : RespectsField T φ)
include hφ

theorem map_entry_eliminate (h : aug.HasShape n m) (hcol : col < n) (hpiv : aug.entry col col ≠ 0#8) {r j : Nat}
    (hr : r < n) (hj : j < m) :
    φ ((eliminate T n col aug).entry r j) =
      if r = col then φ (aug.entry col j) / φ (aug.entry col col)
      else φ (aug.entry r j) + φ (aug.entry r col) * (φ (aug.entry col j) / φ (aug.entry col col)) := by
  rw [entry_eliminate h hcol T hr hj, apply_ite φ, hφ.map_fadd, hφ.map_fmul, hφ.map_fquot _ _ hpiv]

/-- A solution of the new pivot row solves the old one, which is its multiple, and then every other row. -/
theorem isSolution_of_eliminate (h : aug.HasShape n m) (hcol : col < n) (hpiv : aug.entry col col ≠ 0#8) {z : Nat → F}
    (hz : IsSolution φ n m (eliminate T n col aug) z) : IsSolution φ n m aug z := by
  have hpivot : ∑ j ∈ Finset.range m, φ (aug.entry col j) / φ (aug.entry col col) * z j = 0 := by
    rw [← hz col hcol]
    refine Finset.sum_congr rfl fun j hj => ?_
    rw [map_entry_eliminate hφ h hcol hpiv hcol (Finset.mem_range.mp hj), if_pos rfl]
  intro r hr
  by_cases hrc : r = col
  · subst hrc
    have hne := hφ.map_ne_zero hpiv
    calc ∑ j ∈ Finset.range m, φ (aug.entry r j) * z j
        = φ (aug.entry r r) * ∑ j ∈ Finset.range m, φ (aug.entry r j) / φ (aug.entry r r) * z j := by
          rw [Finset.mul_sum]
          refine Finset.sum_congr rfl fun j _ => ?_
          field_simp
      _ = 0 := by rw [hpivot, mul_zero]
  · calc ∑ j ∈ Finset.range m, φ (aug.entry r j) * z j
        = ∑ j ∈ Finset.range m, φ (aug.entry r j) * z j + φ (aug.entry r col) *
            ∑ j ∈ Finset.range m, φ (aug.entry col j) / φ (aug.entry col col) * z j := by
          rw [hpivot, mul_zero, add_zero]
      _ = ∑ j ∈ Finset.range m, φ ((eliminate T n col aug).entry r j) * z j := by
          rw [Finset.mul_sum, ← Finset.sum_add_distrib]
          refine Finset.sum_congr rfl fun j hj => ?_
          rw [map_entry_eliminate hφ h hcol hpiv hr (Finset.mem_range.mp hj), if_neg hrc]
          ring
      _ = 0 := hz r hr

variable [CharP F 2]

theorem Eliminated.eliminate_pivot (h : Eliminated φ n m start col aug) (hcol : col < n) (hm : col < m)
    (hpiv : aug.entry col col ≠ 0#8) : Eliminated φ n m start (col + 1) (eliminate T n col aug) := by
  refine ⟨hasShape_eliminate h.shape hcol T, fun r j hr hj => ?_, fun z hz =>
    h.solves z (isSolution_of_eliminate hφ h.shape hcol hpiv hz)⟩
  rw [map_entry_eliminate hφ h.shape hcol hpiv hr (by omega)]
  rcases Nat.lt_succ_iff_lt_or_eq.mp hj with hlt | rfl
  · rw [h.unit_cols col j hcol hlt, h.unit_cols r j hr hlt, if_neg hlt.ne', zero_div, mul_zero, add_zero]
    exact ite_eq_right_iff.mpr fun hrc => (if_neg (hrc ▸ hlt.ne')).symm
  · rw [div_self (hφ.map_ne_zero hpiv), mul_one, CharTwo.add_self_eq_zero]

/-- One turn of the loop of 41_matrix.md R112. -/
theorem Eliminated.step {p : Nat} (h : Eliminated φ n m start col aug) (hm : n ≤ m)
    (hp : pivotRow n col aug = some p) :
    Eliminated φ n m start (col + 1) (eliminate T n col (swapRows aug p col)) := by
  obtain ⟨hcol, hpn, hne⟩ := pivotRow_eq_some hp
  have hc : col < n := Nat.lt_of_le_of_lt hcol hpn
  refine (h.swap_pivot hcol hpn).eliminate_pivot hφ hc (Nat.lt_of_lt_of_le hc hm) ?_
  rwa [entry_swapRows (h.shape.rows ▸ hpn) (h.shape.rows ▸ hc), Equiv.swap_apply_right]

/-- Elimination that ends has made every column of the left half a column of the identity matrix. -/
theorem eliminated_of_gaussJordan (hm : n ≤ m) {todo : Nat} {out : Mat} (h : Eliminated φ n m start col aug)
    (htodo : col + todo = n) (hout : gaussJordan T n todo col aug = some out) : Eliminated φ n m start n out := by
  induction todo generalizing col aug with
  | zero => cases hout; exact htodo ▸ h
  | succ todo ih =>
    rw [gaussJordan] at hout
    split at hout
    · cases hout
    · rename_i p hp
      exact ih (h.step hφ hm hp) (by omega) hout

/-- The combination of column `col` with the columns before it, the coefficients taken from column `col`. -/
def pivotCombination (φ : Byte → F) (col : Nat) (aug : Mat) (j : Nat) : F :=
  if j < col then φ (aug.entry j col) else if j = col then 1 else 0

/-- Without a pivot in column `col`, that column is a combination of the unit columns before it. -/
theorem isSolution_pivotCombination (h : Eliminated φ n m start col aug) (hm : col < m)
    (hzero : ∀ r, col ≤ r → r < n → aug.entry r col = 0#8) :
    IsSolution φ n m aug (pivotCombination φ col aug) := by
  intro r hr
  calc ∑ j ∈ Finset.range m, φ (aug.entry r j) * pivotCombination φ col aug j
      = ∑ j ∈ Finset.range (col + 1), φ (aug.entry r j) * pivotCombination φ col aug j := by
        refine (Finset.sum_subset (Finset.range_subset_range.mpr hm) fun j _ hj => ?_).symm
        rw [Finset.mem_range, not_lt] at hj
        rw [pivotCombination, if_neg (by omega), if_neg (by omega), mul_zero]
    _ = (if r < col then pivotCombination φ col aug r else 0) + φ (aug.entry r col) := by
        rw [Finset.sum_range_succ, h.sum_unit_cols hr]
        simp [pivotCombination]
    _ = 0 := by
        split
        case isTrue hlt => rw [pivotCombination, if_pos hlt, CharTwo.add_self_eq_zero]
        case isFalse hge => rw [hzero r (by omega) hr, hφ.map_zero, add_zero]

/-- Elimination that ends with SINGULAR has found a nonzero solution that is 0 from the unknown `n` on. -/
theorem exists_isSolution_of_gaussJordan (hm : n ≤ m) {todo : Nat} (h : Eliminated φ n m start col aug)
    (htodo : col + todo = n) (hnone : gaussJordan T n todo col aug = none) :
    ∃ z c, c < n ∧ z c ≠ 0 ∧ (∀ j, n ≤ j → z j = 0) ∧ IsSolution φ n m start z := by
  induction todo generalizing col aug with
  | zero => cases hnone
  | succ todo ih =>
    rw [gaussJordan] at hnone
    split at hnone
    · rename_i hp
      have hsol := isSolution_pivotCombination hφ h (by omega) fun r => pivotRow_eq_none hp
      refine ⟨pivotCombination φ col aug, col, by omega, ?_, fun j hj => ?_, h.solves _ hsol⟩
      · simp [pivotCombination]
      · rw [pivotCombination, if_neg (by omega), if_neg (by omega)]
    · rename_i p hp
      exact ih (h.step hφ hm hp) (by omega) hnone

end

/-! ### The inverse -/

theorem eliminated_augment {F : Type} [Field F] (φ : Byte → F) (n : Nat) (a : Mat) :
    Eliminated φ n (n + n) (augment n a) 0 (augment n a) :=
  ⟨Nat.two_mul n ▸ Mat.hasShape_build n (2 * n) _, fun _ _ _ hj => absurd hj (Nat.not_lt_zero _), fun _ hz => hz⟩

section
variable {F : Type} [Field F] {φ : Byte → F} {n : Nat}

/-- Column `c` of the right half of `[I | R]`, followed by the unit vector. -/
def inverseColumn (φ : Byte → F) (n : Nat) (out : Mat) (c j : Nat) : F :=
  if j < n then φ (out.entry j (n + c)) else if j = n + c then 1 else 0

theorem isSolution_inverseColumn [CharP F 2] {start out : Mat} (h : Eliminated φ n (n + n) start n out) {c : Nat}
    (hc : c < n) : IsSolution φ n (n + n) out (inverseColumn φ n out c) := by
  intro r hr
  have hright : ∑ j ∈ Finset.range n, φ (out.entry r (n + j)) * inverseColumn φ n out c (n + j) =
      φ (out.entry r (n + c)) := by
    simp [inverseColumn, hc]
  rw [Finset.sum_range_add, h.sum_unit_cols hr, if_pos hr, hright, inverseColumn, if_pos hr, CharTwo.add_self_eq_zero]

variable [CharP F 2] {T : Tables} (hφ : RespectsField T φ) {a : Mat}
include hφ

/-- A solution of `[A | I]` is a vector followed by its image under A. -/
theorem isSolution_augment {z : Nat → F} (hz : IsSolution φ n (n + n) (augment n a) z) {r : Nat} (hr : r < n) :
    ∑ j ∈ Finset.range n, φ (a.entry r j) * z j = z (n + r) := by
  have hleft (j : Nat) (hj : j < n) : (augment n a).entry r j = a.entry r j := by
    rw [augment, Mat.entry_build _ hr (by omega), if_pos hj]
  have hright (j : Nat) (hj : j < n) : (augment n a).entry r (n + j) = delta r j := by
    rw [augment, Mat.entry_build _ hr (by omega), if_neg (by omega), delta]
    exact if_congr (by omega) rfl rfl
  rw [← CharTwo.add_eq_zero, ← hz r hr, Finset.sum_range_add]
  congr 1
  · exact Finset.sum_congr rfl fun j hj => by rw [hleft j (Finset.mem_range.mp hj)]
  · calc z (n + r) = ∑ j ∈ Finset.range n, if r = j then z (n + j) else 0 := by simp [hr]
      _ = ∑ j ∈ Finset.range n, φ ((augment n a).entry r (n + j)) * z (n + j) := by
        refine Finset.sum_congr rfl fun j hj => ?_
        rw [hright j (Finset.mem_range.mp hj), hφ.map_delta, ite_mul, one_mul, zero_mul]

/-- Where MINV's procedure ends with SINGULAR, A takes a nonzero vector to 0. -/
theorem det_eq_zero_of_matInv_eq_none (h : matInv T n a = none) : (byteMatrix φ n a.entry).det = 0 := by
  obtain ⟨z, c, hc, hzc, hright, hz⟩ := exists_isSolution_of_gaussJordan hφ (Nat.le_add_right n n)
    (eliminated_augment φ n a) (Nat.zero_add n) (Option.map_eq_none_iff.mp h)
  refine Matrix.exists_mulVec_eq_zero_iff.mp ⟨fun j => z j, fun h0 => hzc (congrFun h0 ⟨c, hc⟩), ?_⟩
  ext r
  have hrow := isSolution_augment hφ hz r.isLt
  rw [hright _ (Nat.le_add_right n r), Finset.sum_range] at hrow
  exact hrow

/-- Where MINV's procedure gives a matrix, that is a right inverse of A. -/
theorem mul_eq_one_of_matInv_eq_some {x : Mat} (h : matInv T n a = some x) :
    byteMatrix φ n a.entry * byteMatrix φ n x.entry = 1 := by
  obtain ⟨out, hout, rfl⟩ := Option.map_eq_some_iff.mp h
  have helim := eliminated_of_gaussJordan hφ (Nat.le_add_right n n) (eliminated_augment φ n a) (Nat.zero_add n) hout
  ext r c
  have hentry (j : Nat) : Mat.entry (out.map (List.drop n)) j c = out.entry j (n + c) := by
    rw [Mat.entry, show ([] : List Byte) = [].drop n from List.drop_nil.symm, List.getD_map]
    simp [Mat.entry]
  have hcol := isSolution_augment hφ (helim.solves _ (isSolution_inverseColumn helim c.isLt)) r.isLt
  rw [Finset.sum_range] at hcol
  simp only [Matrix.mul_apply, Matrix.one_apply, byteMatrix_apply, hentry]
  simpa [inverseColumn, Fin.ext_iff] using hcol

end

/-- MINV's procedure finds no pivot exactly for determinant 0 (41_matrix.md R118). -/
theorem matInv_eq_none_iff {P : Params} (hP : primitive P = true) (n : Nat) (a : Mat) :
    matInv (tables P) n a = none ↔ det (tables P) n a = 0#8 := by
  obtain ⟨F, _, _, φ, hφ⟩ := exists_respectsField hP
  rw [← hφ.map_eq_zero_iff, hφ.map_det]
  refine ⟨det_eq_zero_of_matInv_eq_none hφ, fun hdet => ?_⟩
  by_contra hsome
  obtain ⟨x, hx⟩ := Option.ne_none_iff_exists'.mp hsome
  exact Matrix.det_ne_zero_of_right_inverse (mul_eq_one_of_matInv_eq_some hφ hx) hdet

/-- The matrix that MINV's procedure gives is a right and a left inverse, and there is no other right inverse. -/
theorem matInv_isInverse {P : Params} (hP : primitive P = true) {n : Nat} {a x : Mat}
    (hx : matInv (tables P) n a = some x) {A X : Nat → Nat → Byte} (hA : ∀ i j, i < n → j < n → A i j = a.entry i j)
    (hX : ∀ i j, i < n → j < n → X i j = x.entry i j) :
    IsInverse (tables P) n A X ∧ IsInverse (tables P) n X A ∧
      ∀ Y, IsInverse (tables P) n A Y → ∀ i j, i < n → j < n → Y i j = X i j := by
  obtain ⟨F, _, _, φ, hφ⟩ := exists_respectsField hP
  have hright := mul_eq_one_of_matInv_eq_some hφ hx
  rw [← byteMatrix_congr φ hA, ← byteMatrix_congr φ hX] at hright
  have hleft := mul_eq_one_comm.mp hright
  refine ⟨hφ.mul_eq_one_iff.mp hright, hφ.mul_eq_one_iff.mp hleft, fun Y hY i j hi hj => ?_⟩
  have hYX := left_inv_eq_right_inv hleft (hφ.mul_eq_one_iff.mpr hY)
  exact (hφ.injective (congrFun (congrFun hYX ⟨i, hi⟩) ⟨j, hj⟩)).symm

/-! ### MINV -/

theorem State.entry_matOf (s : State) {b : BankId} {i j : Nat} (hi : i < (s.mdim b).rows.toNat)
    (hj : j < (s.mdim b).cols.toNat) : (s.matOf b).entry i j = s.readByte (bankAddr b.val i j) :=
  Mat.entry_build _ hi hj

/-- A bank reads back the matrix that a command left in it. -/
theorem readByte_complete_bankEffect (d : BankId) {rows cols : Nat} (x : Mat) (u : State) (hrows : rows ≤ 32)
    (hcols : cols ≤ 32) {i j : Nat} (hi : i < rows) (hj : j < cols) :
    (complete (.ok (bankEffect d rows cols x)) u).readByte (bankAddr d.val i j) = x.entry i j := by
  have hstored : (u.storeBytes (matCells rows cols (bankAddr d.val) x)).readByte (bankAddr d.val i j) = x.entry i j :=
    u.readByte_store_matCells x (fun _ _ _ _ hr hc hr' hc' h =>
      (Memory.bankAddr_inj (by omega) (by omega) (by omega) (by omega) h).2) hi hj
  rw [complete_ok, bankEffect, applyEffect_matrix, ← hstored]
  exact State.readByte_congr rfl rfl _

section
variable {s : State} {fd fa : BankField} {d a : BankId} (hd : fd.toNat = d.val) (ha : fa.toNat = a.val)
  (hvalid : (s.mdim a).valid = true) (hsquare : (s.mdim a).rows = (s.mdim a).cols)
include hd ha hvalid hsquare

theorem minvResult_eq_singular (h : matInv (tables s.params) (s.mdim a).rows.toNat (s.matOf a) = none) :
    minvResult fd fa s = .err .singular := by
  simp only [minvResult, bankOf_eq_some.mpr hd, bankOf_eq_some.mpr ha, minvBanks, if_pos hvalid, if_pos hsquare, h]

theorem minvResult_eq_ok {x : Mat} (h : matInv (tables s.params) (s.mdim a).rows.toNat (s.matOf a) = some x) :
    minvResult fd fa s = .ok (bankEffect d (s.mdim a).rows.toNat (s.mdim a).rows.toNat x) := by
  simp only [minvResult, bankOf_eq_some.mpr hd, bankOf_eq_some.mpr ha, minvBanks, if_pos hvalid, if_pos hsquare, h]

end

/-- Settles O22: MINV completes with SINGULAR exactly when the elimination finds no pivot, and else the bank holds its
result. -/
theorem minvInvertsExactlyTheNonsingular : Obligations.MinvInvertsExactlyTheNonsingular := by
  unfold Obligations.MinvInvertsExactlyTheNonsingular
  intro s fd fa d a n hok hd ha hn hn32 hrows hcols
  have hP := primitive_of_ok hok
  have hsquare : (s.mdim a).rows = (s.mdim a).cols := BitVec.eq_of_toNat_eq (hrows.trans hcols.symm)
  have hvalid : (s.mdim a).valid = true := (Shape.valid_iff _).mpr (by omega)
  have hA (i j : Nat) (hi : i < n) (hj : j < n) : s.readByte (bankAddr a.val i j) = (s.matOf a).entry i j :=
    (s.entry_matOf (hrows.symm ▸ hi) (hcols.symm ▸ hj)).symm
  simp only [ne_eq, ← matInv_eq_none_iff hP, exec_eq, instrResult]
  constructor
  · intro hnone
    rw [minvResult_eq_singular hd ha hvalid hsquare (hrows ▸ hnone), complete_err]
    rfl
  · intro hne
    obtain ⟨x, hx⟩ := Option.ne_none_iff_exists'.mp hne
    refine ⟨_, rfl, ?_⟩
    rw [minvResult_eq_ok hd ha hvalid hsquare (hrows ▸ hx), hrows]
    exact ⟨rfl, matInv_isInverse hP hx hA fun i j => readByte_complete_bankEffect d x s hn32 hn32⟩

end Sys2Proof.Machine
end

section
/-! PROOF. The generator matrix (41_matrix.md R113 to R117): its entries are the values of the Lagrange basis polynomials
of x_0..x_{k-1} at the points. -/

namespace Sys2Proof.Machine

/-! ### The points -/

theorem distinctPoints_of_ok {P : Params} (h : P.ok = true) : P.evalPoints.length = 32 ∧ P.evalPoints.Nodup := by
  simp only [Params.ok, distinctPoints, Bool.and_eq_true, decide_eq_true_eq] at h
  obtain ⟨-, hlen, hnodup⟩ := h
  exact ⟨hlen, hnodup⟩

theorem evalPoint_inj {P : Params} (hok : P.ok = true) {i j : Nat} (hi : i < 32) (hj : j < 32)
    (h : evalPoint P i = evalPoint P j) : i = j := by
  obtain ⟨hlen, hnodup⟩ := distinctPoints_of_ok hok
  rw [← hlen] at hi hj
  rw [evalPoint, evalPoint, List.getD_eq_getElem _ _ hi, List.getD_eq_getElem _ _ hj] at h
  exact hnodup.getElem_inj_iff.mp h

section
variable {P : Params} (hok : P.ok = true) {F : Type} [Field F] {φ : Byte → F} (hφ : RespectsField (tables P) φ)
include hok hφ

theorem RespectsField.map_evalPoint_inj {i j : Nat} (hi : i < 32) (hj : j < 32)
    (h : φ (evalPoint P i) = φ (evalPoint P j)) : i = j :=
  evalPoint_inj hok hi hj (hφ.injective h)

variable {k : Nat} (hk : k ≤ 32)
include hk

theorem RespectsField.injOn_evalPoint : Set.InjOn (fun t => φ (evalPoint P t)) (Finset.range k) := by
  intro i hi j hj h
  rw [Finset.coe_range, Set.mem_Iio] at hi hj
  exact hφ.map_evalPoint_inj hok (by omega) (by omega) h

variable [CharP F 2]

/-- `L_c(x)` of 41_matrix.md R113 is the value of Mathlib's Lagrange basis polynomial. -/
theorem RespectsField.map_lagrangeBasis {c : Nat} (hc : c < k) (x : Byte) : φ (lagrangeBasis P (tables P) k c x) =
    (Lagrange.basis (Finset.range k) (fun t => φ (evalPoint P t)) c).eval (φ x) := by
  have hrange : (Finset.range k).erase c = ((List.range k).filter fun t => decide (t ≠ c)).toFinset := by
    ext t
    simp [and_comm]
  rw [lagrangeBasis, hφ.map_fprod, List.map_map, Lagrange.basis, Polynomial.eval_prod, hrange,
    List.prod_toFinset _ (List.nodup_range.filter _)]
  refine congrArg List.prod (List.map_congr_left fun t ht => ?_)
  simp only [List.mem_filter, List.mem_range, decide_eq_true_eq] at ht
  have hne : fadd (evalPoint P c) (evalPoint P t) ≠ 0#8 := fun h0 =>
    ht.2 (evalPoint_inj hok (by omega) (by omega) (BitVec.xor_eq_zero_iff.mp h0)).symm
  rw [Function.comp_apply, hφ.map_fquot _ _ hne, hφ.map_fadd, hφ.map_fadd, Lagrange.basisDivisor]
  rw [Polynomial.eval_mul, Polynomial.eval_sub, Polynomial.eval_C, Polynomial.eval_X, Polynomial.eval_C,
    CharTwo.sub_eq_add, CharTwo.sub_eq_add, div_eq_inv_mul]

/-- Row j of G holds the values of the basis polynomials at x_j, the identity rows too. -/
theorem RespectsField.map_genEntry {c : Nat} (hc : c < k) (j : Nat) : φ (genEntry P (tables P) k j c) =
    (Lagrange.basis (Finset.range k) (fun t => φ (evalPoint P t)) c).eval (φ (evalPoint P j)) := by
  rw [genEntry]
  split
  case isFalse => exact hφ.map_lagrangeBasis hok hk hc _
  case isTrue hjk =>
    by_cases hjc : j = c
    · subst hjc
      rw [if_pos rfl, hφ.map_one]
      exact (Lagrange.eval_basis_self (hφ.injOn_evalPoint hok hk) (Finset.mem_range.mpr hc)).symm
    · rw [if_neg hjc, hφ.map_zero]
      exact (Lagrange.eval_basis_of_ne (v := fun t => φ (evalPoint P t)) (Ne.symm hjc) (Finset.mem_range.mpr hjk)).symm

/-- The polynomial `X^e` is its own interpolation from k points when e < k. -/
theorem RespectsField.sum_genEntry_mul_pow (j : Nat) {e : Nat} (he : e < k) :
    ∑ c ∈ Finset.range k, φ (genEntry P (tables P) k j c) * φ (evalPoint P c) ^ e = φ (evalPoint P j) ^ e := by
  have hdeg : (Polynomial.X ^ e : Polynomial F).degree < (Finset.range k).card := by
    rw [Polynomial.degree_X_pow, Finset.card_range]
    exact_mod_cast he
  have hself := congrArg (Polynomial.eval (φ (evalPoint P j)))
    (Lagrange.eq_interpolate (hφ.injOn_evalPoint hok hk) hdeg)
  simp only [Lagrange.interpolate_apply, Polynomial.eval_finsetSum, Polynomial.eval_mul, Polynomial.eval_C,
    Polynomial.eval_pow, Polynomial.eval_X] at hself
  rw [hself]
  refine Finset.sum_congr rfl fun c hc => ?_
  rw [hφ.map_genEntry hok hk (Finset.mem_range.mp hc) j, mul_comm]

/-- k rows of G times the Vandermonde matrix of x_0..x_{k-1} are the Vandermonde matrix of their own points
(41_matrix.md R113). -/
theorem RespectsField.genRows_mul_vandermonde {rows : List Nat} (hlen : rows.length = k) :
    byteMatrix φ k (genRows P (tables P) k rows).entry * Matrix.vandermonde (fun c : Fin k => φ (evalPoint P c)) =
      Matrix.vandermonde fun i : Fin k => φ (evalPoint P (rows.get (i.cast hlen.symm))) := by
  ext i e
  have hi : i.val < rows.length := hlen ▸ i.isLt
  rw [Matrix.mul_apply, Matrix.vandermonde_apply,
    ← hφ.sum_genEntry_mul_pow hok hk _ e.isLt, Finset.sum_range]
  refine Finset.sum_congr rfl fun c _ => ?_
  rw [byteMatrix_apply, Matrix.vandermonde_apply, Mat.entry_genRows P _ k rows hi c.isLt]
  rfl

theorem RespectsField.det_genRows_ne_zero {rows : List Nat} (hlen : rows.length = k) (hnodup : rows.Nodup)
    (hrows : ∀ j ∈ rows, j < 32) : (byteMatrix φ k (genRows P (tables P) k rows).entry).det ≠ 0 := by
  have hdet := congrArg Matrix.det (hφ.genRows_mul_vandermonde hok hk hlen)
  rw [Matrix.det_mul] at hdet
  refine left_ne_zero_of_mul (hdet.symm ▸ Matrix.det_vandermonde_ne_zero_iff.mpr fun i i' h => ?_)
  have hpoint := hφ.map_evalPoint_inj hok (hrows _ (List.get_mem rows _)) (hrows _ (List.get_mem rows _)) h
  exact Fin.cast_injective _ (hnodup.injective_get hpoint)

end

/-! ### The obligations -/

/-- Settles O24: the check passes exactly when kmOk does. -/
theorem genmatRangeCheck : Obligations.GenmatRangeCheck := by
  unfold Obligations.GenmatRangeCheck
  intro s fd hfd
  obtain ⟨d, hd, -⟩ := bankOf_of_legal (f := fd) (decide_eq_true hfd)
  have hkm : s.kmOk = true ↔ ¬(s.dataChunks.toNat < 1 ∨ s.dataChunks.toNat + s.codeChunks.toNat > 32) := by
    rw [s.kmOk_iff, State.k, State.m]
    omega
  simp only [exec_eq, instrResult, genmatResult, hd, genmatBank]
  constructor
  · intro hbad
    rw [if_neg fun hok => hkm.mp hok hbad, complete_err]
    rfl
  · intro hgood
    rw [if_pos (hkm.mpr hgood), complete_ok]
    exact ⟨_, rfl, rfl⟩

/-- Settles O25, in a field of characteristic 2: the Lagrange rows interpolate the powers. -/
theorem generatorInterpolatesPowers : Obligations.GeneratorInterpolatesPowers := by
  unfold Obligations.GeneratorInterpolatesPowers
  intro P k m j e hok _ hkm hj he
  obtain ⟨F, _, _, φ, hφ⟩ := exists_respectsField (primitive_of_ok hok)
  apply hφ.injective
  simp only [hφ.map_fsum_range, hφ.map_fmul, hφ.map_fpow]
  exact hφ.sum_genEntry_mul_pow hok (by omega) j he

/-- Part (b) of 41_matrix.md R117. -/
theorem matInv_genRows_ne_none {P : Params} (hok : P.ok = true) {k : Nat} (hk : k ≤ 32) {rows : List Nat}
    (hlen : rows.length = k) (hnodup : rows.Nodup) (hrows : ∀ j ∈ rows, j < 32) :
    matInv (tables P) k (genRows P (tables P) k rows) ≠ none := by
  obtain ⟨F, _, _, φ, hφ⟩ := exists_respectsField (primitive_of_ok hok)
  exact fun hnone => hφ.det_genRows_ne_zero hok hk hlen hnodup hrows (det_eq_zero_of_matInv_eq_none hφ hnone)

/-- The selection of DECODE is k distinct columns (42_reed_solomon.md R135). -/
theorem State.nodup_selected (s : State) : s.selected.Nodup :=
  (List.take_sublist _ _).nodup (List.nodup_range.filter _)

theorem State.lt_total_of_mem_selected {s : State} {j : Nat} (h : j ∈ s.selected) : j < s.total :=
  List.mem_range.mp (List.mem_filter.mp (List.mem_of_mem_take h)).1

/-- DECODE inverts k distinct rows of G, so it finds a pivot in every column (42_reed_solomon.md R136). -/
theorem decodeResult_ne_singular {s : State} (hok : s.params.ok = true) : decodeResult s ≠ .err .singular := by
  unfold decodeResult
  split
  case isFalse => simp
  case isTrue hstream =>
    obtain ⟨⟨hk, hkm⟩, -⟩ := s.streamOk_iff.mp hstream
    split
    case isTrue => simp
    case isFalse hvalid =>
      have hlen : s.selected.length = s.k := by
        rw [State.selected, List.length_take, Nat.min_eq_left (by omega)]
      have hne := matInv_genRows_ne_none hok (by omega) hlen s.nodup_selected
        fun j hj => Nat.lt_of_lt_of_le (State.lt_total_of_mem_selected hj) hkm
      obtain ⟨h, hinv⟩ := Option.ne_none_iff_exists'.mp hne
      rw [selectedRows, hinv]
      simp

theorem CmdResult.eq_singular_of_code {r : CmdResult} (h : r.code = 0x03#8) : r = .err .singular := by
  cases r with
  | ok e => exact absurd h (by decide : (0x00#8 : Byte) ≠ 0x03#8)
  | err k =>
    revert h
    cases k <;> decide

/-- Settles O26: k rows of G times a Vandermonde matrix are a Vandermonde matrix of distinct points, whose determinant
is not 0. -/
theorem generatorIsMds : Obligations.GeneratorIsMds := by
  unfold Obligations.GeneratorIsMds
  refine ⟨fun P k m rows hok _ hkm => ⟨fun j c hj _ => if_pos hj, fun hlen hnodup hrows => ?_⟩, fun s t hok hexec => ?_⟩
  · exact matInv_genRows_ne_none hok (by omega) hlen hnodup fun j hj => Nat.lt_of_lt_of_le (hrows j hj) hkm
  · rw [exec_eq] at hexec
    cases hexec
    exact fun hcode => decodeResult_ne_singular hok (CmdResult.eq_singular_of_code hcode)

end Sys2Proof.Machine
end

section
/-! PROOF. ENCODE (42_reed_solomon.md R132, R133, R141): what the codeword columns hold, the stream record that a
successful ENCODE leaves, and the agreement with the interpolation encoder. -/

namespace Sys2Proof.Machine

/-! ### The rows of G on data -/

section
variable {P : Params} (hok : P.ok = true) {k : Nat}
include hok

/-- Every row of G holds the values of the L_c at its point, the identity rows too (42_reed_solomon.md R141). -/
theorem genEntry_eq_lagrangeBasis (hk : k ≤ 32) {c : Nat} (hc : c < k) (j : Nat) :
    genEntry P (tables P) k j c = lagrangeBasis P (tables P) k c (evalPoint P j) := by
  obtain ⟨F, _, _, φ, hφ⟩ := exists_respectsField (primitive_of_ok hok)
  apply hφ.injective
  rw [hφ.map_genEntry hok hk hc, hφ.map_lagrangeBasis hok hk hc]

/-- An identity row of G picks out its element. -/
theorem fsum_genEntry_of_lt {j : Nat} (hj : j < k) (d : Nat → Byte) :
    fsum ((List.range k).map fun c => fmul (tables P) (genEntry P (tables P) k j c) (d c)) = d j := by
  obtain ⟨F, _, _, φ, hφ⟩ := exists_respectsField (primitive_of_ok hok)
  have hentry (c : Nat) : genEntry P (tables P) k j c = delta j c := if_pos hj
  apply hφ.injective
  simp only [hφ.map_fsum_range, hφ.map_fmul, hentry, hφ.map_delta, ite_mul, one_mul, zero_mul]
  rw [Finset.sum_ite_eq, if_pos (Finset.mem_range.mpr hj)]

end

/-! ### The range check -/

theorem State.streamOk_of_bounds {s : State} (hk : 1 ≤ s.k) (hkm : s.k + s.m ≤ 32) (hlen : s.len ≤ s.k * 256) :
    s.streamOk = true := s.streamOk_iff.mpr ⟨⟨hk, hkm⟩, hlen⟩

/-- The check fails exactly on the three conditions of 42_reed_solomon.md R130. -/
theorem State.streamOk_iff_not_outOfRange (s : State) :
    s.streamOk = true ↔ ¬(s.k < 1 ∨ s.k + s.m > 32 ∨ s.len > s.k * 256) := by
  rw [s.streamOk_iff]
  omega

theorem encodeResult_of_streamOk {s : State} (h : s.streamOk = true) : encodeResult s =
    .ok (.codeword (matCells s.total s.rc cwAddr (codewordColumns s)) (allValid s.total) (BitVec.ofNat 16 s.rc)) :=
  if_pos h

theorem encodeResult_of_not_streamOk {s : State} (h : ¬s.streamOk = true) : encodeResult s = .err .paramRange :=
  if_neg h

/-- A stream in range fits the DATA buffer. -/
theorem State.len_le_dataBytes {s : State} (h : s.streamOk = true) : s.len ≤ Config.dataBytes := by
  obtain ⟨⟨-, hkm⟩, hlen⟩ := s.streamOk_iff.mp h
  unfold Config.dataBytes
  omega

/-- A row count that fits a column fits ROW_COUNT. -/
theorem State.toNat_ofNat_rc {s : State} (h : s.streamOk = true) : (BitVec.ofNat 16 s.rc).toNat = s.rc := by
  have hrc := s.rc_le h
  rw [BitVec.toNat_ofNat, Nat.mod_eq_of_lt (by omega)]

/-! ### The completion -/

/-- A successful ENCODE writes CW, VALID, ROW_COUNT and STATUS only. -/
theorem complete_codeword (cells : List Host.Cell) (v : Word) (rc : BitVec 16) (s : State) :
    complete (.ok (.codeword cells v rc)) s =
      succeeded { s with mem := Memory.store s.mem cells, valid := v, rowCount := rc } :=
  complete_ok _ s

section
variable {s : State} (hstream : s.streamOk = true)
include hstream

theorem exec_encode_of_streamOk : exec .encode s = .next (succeeded { s with
    mem := Memory.store s.mem (matCells s.total s.rc cwAddr (codewordColumns s)), valid := allValid s.total,
    rowCount := BitVec.ofNat 16 s.rc }) := by
  rw [exec_eq, instrResult, encodeResult_of_streamOk hstream, complete_codeword]

/-- CW[j][r] after ENCODE is row j of G applied to data row r (42_reed_solomon.md R132). -/
theorem readByte_exec_encode {t : State} (hexec : exec .encode s = .next t) {j r : Nat} (hj : j < s.total)
    (hr : r < s.rc) : t.readByte (cwAddr j r) = fsum ((List.range s.k).map fun c =>
      fmul (tables s.params) (genEntry s.params (tables s.params) s.k j c) (dataAt s r c)) := by
  rw [exec_eq, instrResult, encodeResult_of_streamOk hstream] at hexec
  cases hexec
  rw [readByte_complete_codeword _ _ _ s (s.rc_le hstream) hj hr, codewordColumns, matMul_entry _ _ _ hj hr]
  refine congrArg fsum (List.map_congr_left fun c hc => ?_)
  have hck := List.mem_range.mp hc
  rw [Mat.entry_genRows _ _ _ _ (by simpa using hj) hck, List.getElem_range, State.dataColumns,
    Mat.entry_build _ hck hr]
  rfl

end

/-- VALID after ENCODE marks exactly the columns below total (42_reed_solomon.md R133). -/
theorem getLsbD_allValid (total : Nat) {j : Nat} (hj : j < 32) : (allValid total).getLsbD j = decide (j < total) := by
  rw [allValid, BitVec.getLsbD_ofNat, Nat.testBit_two_pow_sub_one, decide_eq_true hj, Bool.true_and]

/-! ### The obligations -/

/-- Settles O28: the identity rows of G copy the data columns. -/
theorem encodeIsSystematic : Obligations.EncodeIsSystematic := by
  unfold Obligations.EncodeIsSystematic
  intro s hok hk hkm hlen
  have hstream := State.streamOk_of_bounds hk hkm hlen
  have hexec := exec_encode_of_streamOk hstream
  refine ⟨_, hexec, rfl, rfl, rfl, rfl, fun j hj => getLsbD_allValid s.total hj, State.toNat_ofNat_rc hstream,
    fun c r hc hr => ?_⟩
  rw [readByte_exec_encode hstream hexec (Nat.lt_of_lt_of_le hc (Nat.le_add_right _ _)) hr, fsum_genEntry_of_lt hok hc]
  rfl

/-- Settles O29: every row of G, an identity row too, holds the values of the L_c. -/
theorem encodeEqualsInterpolation : Obligations.EncodeEqualsInterpolation := by
  unfold Obligations.EncodeEqualsInterpolation
  intro s hok hk hkm hlen
  have hstream := State.streamOk_of_bounds hk hkm hlen
  have hexec := exec_encode_of_streamOk hstream
  have hk32 : s.k ≤ 32 := by omega
  refine ⟨⟨_, hexec, fun j r hj hr => ?_⟩, fun j c hj hc => ?_⟩
  · rw [readByte_exec_encode hstream hexec hj hr, lagrangeEncode]
    refine congrArg fsum (List.map_congr_left fun c hc => ?_)
    have hP := primitive_of_ok hok
    rw [genEntry_eq_lagrangeBasis hok hk32 (List.mem_range.mp hc), fmul_eq_fmulx hP, fmul_eq_fmulx hP, fmulx_comm]
  · rw [← genEntry_eq_lagrangeBasis hok hk32 hc]
    exact if_pos hj

end Sys2Proof.Machine
end

section
/-! PROOF. DECODE (42_reed_solomon.md R134 to R140): which columns it selects, what it writes, and that it recovers the
data of every codeword from any k of its columns; and the range check that it shares with ENCODE (R130). -/

namespace Sys2Proof.Machine

/-! ### The selection -/

theorem State.length_validColumns (s : State) : s.validColumns.length = validCount s :=
  List.countP_eq_length_filter.symm

theorem State.length_selected {s : State} (h : s.k ≤ validCount s) : s.selected.length = s.k := by
  rw [State.selected, List.length_take, s.length_validColumns, Nat.min_eq_left h]

theorem State.entry_survivors (s : State) {i r : Nat} (hi : i < s.selected.length) (hr : r < s.rc) :
    s.survivors.entry i r = s.readByte (cwAddr s.selected[i] r) := by
  simp [State.survivors, Mat.entry, hi, hr]

/-- With the data columns valid, they are the columns selected (42_reed_solomon.md R138). -/
theorem State.selected_eq_range {s : State} (h : ∀ j, j < s.k → s.valid.getLsbD j = true) :
    s.selected = List.range s.k := by
  have hall : (List.range s.k).filter (fun j => s.valid.getLsbD j) = List.range s.k :=
    List.filter_eq_self.mpr fun j hj => h j (List.mem_range.mp hj)
  rw [State.selected, State.validColumns, State.total, List.range_add, List.filter_append, hall]
  exact List.take_left' List.length_range

/-- Where every column below total is valid, the valid count is total. -/
theorem validCount_of_all_valid {s : State} (h : ∀ j, j < s.total → s.valid.getLsbD j = true) :
    validCount s = s.total := by
  rw [validCount, List.countP_eq_length.mpr fun j hj => h j (List.mem_range.mp hj), List.length_range]

/-! ### Inverting the selected rows -/

/-- A row of bytes times a column is that row of the matrix over the field times the column. -/
theorem RespectsField.map_fsum_row {T : Tables} {F : Type} [Field F] {φ : Byte → F} (hφ : RespectsField T φ) {n : Nat}
    (a : Nat → Nat → Byte) (x : Nat → Byte) (i : Fin n) :
    φ (fsum ((List.range n).map fun c => fmul T (a i c) (x c))) =
      (byteMatrix φ n a).mulVec (fun c => φ (x c)) i := by
  rw [hφ.map_fsum_range, Finset.sum_range]
  exact Finset.sum_congr rfl fun c _ => hφ.map_fmul _ _

/-- The inverse takes the image of a column back to the column. -/
theorem fsum_matInv_of_image {P : Params} (hP : primitive P = true) {n : Nat} {a h : Mat}
    (hinv : matInv (tables P) n a = some h) {x y : Nat → Byte}
    (hy : ∀ i, i < n → y i = fsum ((List.range n).map fun c => fmul (tables P) (a.entry i c) (x c))) {c : Nat}
    (hc : c < n) : fsum ((List.range n).map fun i => fmul (tables P) (h.entry c i) (y i)) = x c := by
  obtain ⟨F, _, _, φ, hφ⟩ := exists_respectsField hP
  have hleft := mul_eq_one_comm.mp (mul_eq_one_of_matInv_eq_some hφ hinv)
  have himage : (fun i : Fin n => φ (y i)) = (byteMatrix φ n a.entry).mulVec fun c => φ (x c) :=
    funext fun i => by rw [hy i i.isLt, hφ.map_fsum_row]
  apply hφ.injective
  rw [hφ.map_fsum_row h.entry y ⟨c, hc⟩, himage, Matrix.mulVec_mulVec, hleft, Matrix.one_mulVec]

/-! ### The completion -/

/-- The data bytes DECODE leaves are those it computes (42_reed_solomon.md R137). -/
theorem readByte_complete_data (s u : State) (x : Mat) (rc : BitVec 16) {p : Nat} (hp : p < s.len) :
    (complete (.ok (.data (dataCells s x) rc)) u).readByte (dataAddr p) = x.entry (p % s.k) (p / s.k) := by
  have hmem : (dataAddr p, x.entry (p % s.k) (p / s.k)) ∈ dataCells s x :=
    List.mem_map.mpr ⟨p, List.mem_range.mpr hp, rfl⟩
  have hstored : (u.storeBytes (dataCells s x)).readByte (dataAddr p) = x.entry (p % s.k) (p / s.k) := by
    refine u.readByte_storeBytes_of_mem (dataCells s x) _ hmem fun d hd hoff => ?_
    obtain ⟨q, -, rfl⟩ := List.mem_map.mp hd
    obtain rfl := Memory.dataAddr_inj hoff
    rfl
  rw [complete_ok, applyEffect_data, ← hstored]
  exact State.readByte_congr rfl rfl _

theorem decodeResult_of_not_streamOk {s : State} (h : ¬s.streamOk = true) : decodeResult s = .err .paramRange :=
  if_neg h

section
variable {s : State} (hstream : s.streamOk = true)
include hstream

theorem decodeResult_of_validCount_lt (h : validCount s < s.k) : decodeResult s = .err .insufficientShares := by
  rw [decodeResult, if_pos hstream, s.length_validColumns, if_pos h]

theorem exec_decode_of_validCount_lt (h : validCount s < s.k) : exec .decode s = .next (failed 0x04#8 s) := by
  rw [exec_eq, instrResult, decodeResult_of_validCount_lt hstream h, complete_err]
  rfl

variable (hvalid : s.k ≤ validCount s)
include hvalid

theorem decodeResult_of_matInv_eq_some {h : Mat} (hinv : matInv (tables s.params) s.k (selectedRows s) = some h) :
    decodeResult s = .ok (.data (dataCells s (recoveredColumns s h)) (BitVec.ofNat 16 s.rc)) := by
  simp only [decodeResult, if_pos hstream, s.length_validColumns, if_neg hvalid.not_gt, hinv]

theorem decodeResult_of_matInv_eq_none (hinv : matInv (tables s.params) s.k (selectedRows s) = none) :
    decodeResult s = .err .singular := by
  simp only [decodeResult, if_pos hstream, s.length_validColumns, if_neg hvalid.not_gt, hinv]

variable (hok : s.params.ok = true)
include hok

/-- With enough columns DECODE completes with NONE, since it never ends with SINGULAR. -/
theorem exists_decodeResult_ok : ∃ h, matInv (tables s.params) s.k (selectedRows s) = some h ∧
    decodeResult s = .ok (.data (dataCells s (recoveredColumns s h)) (BitVec.ofNat 16 s.rc)) := by
  cases hinv : matInv (tables s.params) s.k (selectedRows s) with
  | some h => exact ⟨h, rfl, decodeResult_of_matInv_eq_some hstream hvalid hinv⟩
  | none => exact absurd (decodeResult_of_matInv_eq_none hstream hvalid hinv) (decodeResult_ne_singular hok)

/-- Where the selected columns are those of a codeword of the data `d`, DECODE writes `d` (42_reed_solomon.md R140). -/
theorem exec_decode_of_codeword (d : Nat → Nat → Byte)
    (hcols : ∀ j ∈ s.selected, ∀ r, r < s.rc → s.readByte (cwAddr j r) = fsum ((List.range s.k).map fun c =>
      fmul (tables s.params) (genEntry s.params (tables s.params) s.k j c) (d r c))) :
    ∃ t, exec .decode s = .next t ∧ t.errcode = 0x00#8 ∧ t.valid = s.valid ∧ t.rowCount.toNat = s.rc ∧
      ∀ p, p < s.len → t.readByte (dataAddr p) = d (p / s.k) (p % s.k) := by
  obtain ⟨h, hinv, hres⟩ := exists_decodeResult_ok hstream hvalid hok
  obtain ⟨⟨hk, -⟩, -⟩ := s.streamOk_iff.mp hstream
  refine ⟨_, exec_eq .decode s, ?_⟩
  rw [instrResult, hres]
  refine ⟨rfl, rfl, State.toNat_ofNat_rc hstream, fun p hp => ?_⟩
  have hr := s.div_lt_rc hk hp
  have hc : p % s.k < s.k := Nat.mod_lt p hk
  rw [readByte_complete_data s s _ _ hp, recoveredColumns, matMul_entry _ _ _ hc hr]
  refine fsum_matInv_of_image (primitive_of_ok hok) hinv (x := d (p / s.k)) (fun i hi => ?_) hc
  have hsel : i < s.selected.length := by rwa [State.length_selected hvalid]
  rw [s.entry_survivors hsel hr, hcols _ (List.getElem_mem hsel) _ hr]
  refine congrArg fsum (List.map_congr_left fun c hc => ?_)
  rw [selectedRows, Mat.entry_genRows _ _ _ _ hsel (List.mem_range.mp hc)]

end

/-- A stream in range passes the range check, and DECODE ends in one of its three other ways. -/
theorem code_decodeResult_ne_paramRange {s : State} (hstream : s.streamOk = true) : (decodeResult s).code ≠ 0x06#8 := by
  rcases Nat.lt_or_ge (validCount s) s.k with hfew | hvalid
  · rw [decodeResult_of_validCount_lt hstream hfew]
    decide
  · cases hinv : matInv (tables s.params) s.k (selectedRows s) with
    | none => rw [decodeResult_of_matInv_eq_none hstream hvalid hinv]; decide
    | some h =>
      rw [decodeResult_of_matInv_eq_some hstream hvalid hinv, CmdResult.code_ok]
      decide

/-! ### The inputs of DECODE -/

section
variable {s s' : State} (hp : s'.params = s.params) (hl : s'.origLen = s.origLen)
  (hk : s'.dataChunks = s.dataChunks) (hm : s'.codeChunks = s.codeChunks)
  (hv : ∀ j, j < s.total → s'.valid.getLsbD j = s.valid.getLsbD j)
include hk hm hv

/-- The selection reads k, m and the VALID bits below total (42_reed_solomon.md R135). -/
theorem validColumns_congr : s'.validColumns = s.validColumns := by
  unfold State.validColumns State.total State.k State.m
  rw [hk, hm]
  exact List.filter_congr fun j hj => hv j (List.mem_range.mp hj)

theorem selected_congr : s'.selected = s.selected := by
  unfold State.selected State.k
  rw [validColumns_congr hk hm hv, hk]

include hl

/-- The survivors are the selected columns at rows below rc (42_reed_solomon.md R134). -/
theorem survivors_congr
    (hcw : ∀ j r, j ∈ s.selected → r < s.rc → s'.readByte (cwAddr j r) = s.readByte (cwAddr j r)) :
    s'.survivors = s.survivors := by
  have hrc : s'.rc = s.rc := by unfold State.rc State.len State.k; rw [hl, hk]
  unfold State.survivors
  rw [selected_congr hk hm hv, hrc]
  exact List.map_congr_left fun j hj => List.map_congr_left fun r hr => hcw j r hj (List.mem_range.mp hr)

include hp

/-- The inputs of DECODE are the parameters, k, m, L, the VALID bits below total and the selected columns at rows below
rc (20_memory.md R65). -/
theorem decodeResult_congr
    (hcw : ∀ j r, j ∈ s.selected → r < s.rc → s'.readByte (cwAddr j r) = s.readByte (cwAddr j r)) :
    decodeResult s' = decodeResult s := by
  unfold decodeResult selectedRows recoveredColumns dataCells State.streamOk State.kmOk State.total State.rc State.len
    State.k State.m
  rw [survivors_congr hl hk hm hv hcw, selected_congr hk hm hv, validColumns_congr hk hm hv, hp, hl, hk, hm]

end

/-! ### The obligations -/

/-- Settles O30: both commands test streamOk first, and ENCODE tests nothing else. -/
theorem streamRangeCheck : Obligations.StreamRangeCheck := by
  unfold Obligations.StreamRangeCheck
  intro s
  refine ⟨fun hbad => ?_, fun hgood => ?_⟩
  · have hstream : ¬s.streamOk = true := fun h => s.streamOk_iff_not_outOfRange.mp h hbad
    rw [exec_eq, exec_eq, instrResult, instrResult, encodeResult_of_not_streamOk hstream,
      decodeResult_of_not_streamOk hstream, complete_err]
    exact ⟨rfl, rfl⟩
  · have hstream := s.streamOk_iff_not_outOfRange.mpr hgood
    exact ⟨⟨_, exec_encode_of_streamOk hstream, rfl⟩, ⟨_, exec_eq .decode s, code_decodeResult_ne_paramRange hstream⟩,
      State.len_le_dataBytes hstream, s.rc_le hstream⟩

/-- Settles O33: the columns 0..k-1 are the identity rows of G applied to themselves. -/
theorem decodeCopiesValidDataColumns : Obligations.DecodeCopiesValidDataColumns := by
  unfold Obligations.DecodeCopiesValidDataColumns
  intro s hok hk hkm hlen hdata
  have hsel := State.selected_eq_range hdata
  have hvalid : s.k ≤ validCount s := by
    have hlength := congrArg List.length hsel
    rw [State.selected, List.length_take, List.length_range, s.length_validColumns] at hlength
    omega
  refine exec_decode_of_codeword (State.streamOk_of_bounds hk hkm hlen) hvalid hok
    (fun r c => s.readByte (cwAddr c r)) fun j hj r _ => ?_
  rw [hsel] at hj
  exact (fsum_genEntry_of_lt hok (List.mem_range.mp hj) fun c => s.readByte (cwAddr c r)).symm

/-- Settles O34: the columns ENCODE wrote are a codeword of the data, whichever of them DECODE selects. -/
theorem erasureTolerance : Obligations.ErasureTolerance := by
  unfold Obligations.ErasureTolerance
  intro s t u hok hk hkm hlen hexec hp hl hdc hcc hcw
  have hstream := State.streamOk_of_bounds hk hkm hlen
  have hku : u.k = s.k := congrArg BitVec.toNat hdc
  have hmu : u.m = s.m := congrArg BitVec.toNat hcc
  have hlu : u.len = s.len := congrArg BitVec.toNat hl
  have htotal : u.total = s.total := by rw [State.total, hku, hmu]; rfl
  have hrc : u.rc = s.rc := by rw [State.rc, hlu, hku]; rfl
  have hstreamu : u.streamOk = true := State.streamOk_of_bounds (hku ▸ hk) (hku ▸ hmu ▸ hkm) (hku ▸ hlu ▸ hlen)
  refine ⟨fun hvalid => ?_, fun hvalid => ?_, fun hfew => exec_decode_of_validCount_lt hstreamu (hku ▸ hfew)⟩
  · rw [exec_encode_of_streamOk hstream] at hexec
    cases hexec
    have hall : ∀ j, j < u.total → u.valid.getLsbD j = true := fun j hj => by
      rw [htotal] at hj
      rw [hvalid]
      exact (getLsbD_allValid s.total (Nat.lt_of_lt_of_le hj hkm)).trans (decide_eq_true hj)
    rw [validCount_of_all_valid hall, htotal]
    exact Nat.le_add_right _ _
  · obtain ⟨v, hv, hcode, -, -, hdata⟩ := exec_decode_of_codeword hstreamu (hku ▸ hvalid) (hp ▸ hok) (dataAt s)
      fun j hj r hr => by
        have hj' : j < s.total := htotal ▸ State.lt_total_of_mem_selected hj
        rw [hrc] at hr
        rw [hcw j r hj' hr, readByte_exec_encode hstream hexec hj' hr, hp, hku]
    refine ⟨v, hv, hcode, fun p hplen => ?_⟩
    rw [hdata p (hlu ▸ hplen), hku, dataAt, Nat.div_add_mod', if_pos hplen]

/-- Settles O36: both states give DECODE one result, whose data cells cover every byte compared. -/
theorem decodeReadsOnlySelectedColumns : Obligations.DecodeReadsOnlySelectedColumns := by
  unfold Obligations.DecodeReadsOnlySelectedColumns
  intro s s' t t' hp hl hk hm hv hcw hexec hexec'
  rw [exec_eq] at hexec hexec'
  have hres : instrResult .decode s' = instrResult .decode s := decodeResult_congr hp hl hk hm hv hcw
  rw [hres] at hexec'
  cases hexec
  cases hexec'
  refine ⟨rfl, fun hcode => ?_⟩
  cases he : instrResult .decode s with
  | err k => rw [he] at hcode; exact absurd hcode k.code_ne_zero
  | ok e =>
    obtain ⟨-, -, h, -, rfl⟩ := decodeResult_ok he
    refine ⟨rfl, fun p hplen => ?_⟩
    rw [readByte_complete_data s s' _ _ hplen, readByte_complete_data s s _ _ hplen]

end Sys2Proof.Machine
end

section
/-! PROOF. The completion of a command (60_exceptions.md sections 1 and 2): what it can write, what it raises, and the
codes each command can complete with (R150). -/

namespace Sys2Proof.Machine

/-! ### What a completion writes -/

/-- All a completion can change: RESULT, ROW_COUNT, VALID, the MDIM registers and buffer bytes by the effect, then
ERRCODE, DONE, ERROR and the phase (60_exceptions.md R152). -/
theorem complete_frame (r : CmdResult) (s : State) : ∃ res rc v m0 m1 m2 m3 mem, complete r s = { s with
    result := res, rowCount := rc, valid := v, mdim0 := m0, mdim1 := m1, mdim2 := m2, mdim3 := m3, mem := mem,
    errcode := r.code, done := true, error := s.error || decide (r.code ≠ 0x00#8), phase := .idle } := by
  rw [complete_eq]
  cases r with
  | err k => exact ⟨_, _, _, _, _, _, _, _, rfl⟩
  | ok e =>
    cases e with
    | result r => exact ⟨_, _, _, _, _, _, _, _, rfl⟩
    | matrix d shape cells => exact ⟨_, _, _, _, _, _, _, _, rfl⟩
    | codeword cells v rc => exact ⟨_, _, _, _, _, _, _, _, rfl⟩
    | data cells rc => exact ⟨_, _, _, _, _, _, _, _, rfl⟩

/-- ERRCODE after a command is the code of its result. -/
theorem errcode_of_exec {i : Instr} {s t : State} (h : exec i s = .next t) : t.errcode = (instrResult i s).code := by
  rw [exec_eq] at h
  cases h
  rfl

/-- Settles O37: a code other than NONE is the code of an error, which has no effect. -/
theorem failedCommandChangesOnlyStatus : Obligations.FailedCommandChangesOnlyStatus := by
  unfold Obligations.FailedCommandChangesOnlyStatus
  intro i s t hexec hcode
  rw [errcode_of_exec hexec] at hcode ⊢
  rw [exec_eq] at hexec
  cases hexec
  cases hr : instrResult i s with
  | ok e => rw [hr] at hcode; exact absurd rfl hcode
  | err k => exact complete_err k s

/-- Settles O38: the command is the completion of its result, which has the frame above. -/
theorem completionKeepsInputsAndRaisesDone : Obligations.CompletionKeepsInputsAndRaisesDone := by
  unfold Obligations.CompletionKeepsInputsAndRaisesDone
  intro i s
  refine ⟨_, exec_eq i s, ?_⟩
  obtain ⟨_, _, _, _, _, _, _, _, h⟩ := complete_frame (instrResult i s) s
  rw [h]
  exact ⟨rfl, rfl, rfl, rfl, rfl, rfl, rfl, rfl, rfl, rfl, rfl, rfl, rfl, Bool.and_true _⟩

/-! ### The codes of each command (60_exceptions.md R150) -/

theorem resultOr_code_mem (o : Option Byte) : (resultOr o).code ∈ [0x00#8, 0x01#8] := by
  cases o with
  | none => exact .tail _ (.head _)
  | some r => exact .head _

/-- A well-formed command's result is that of its banks. -/
theorem mmulResult_of_wellFormed {d a b : BankField} (h : (Instr.mmul d a b).WellFormed = true) (s : State) :
    ∃ d' a' b' : BankId, mmulResult d a b s = mmulBanks d' a' b' s := by
  simp only [Instr.WellFormed, Bool.and_eq_true] at h
  obtain ⟨⟨hd, ha⟩, hb⟩ := h
  obtain ⟨d', hd', -⟩ := bankOf_of_legal hd
  obtain ⟨a', ha', -⟩ := bankOf_of_legal ha
  obtain ⟨b', hb', -⟩ := bankOf_of_legal hb
  exact ⟨d', a', b', by simp only [mmulResult, hd', ha', hb']⟩

theorem minvResult_of_wellFormed {d a : BankField} (h : (Instr.minv d a).WellFormed = true) (s : State) :
    ∃ d' a' : BankId, minvResult d a s = minvBanks d' a' s := by
  simp only [Instr.WellFormed, Bool.and_eq_true] at h
  obtain ⟨hd, ha⟩ := h
  obtain ⟨d', hd', -⟩ := bankOf_of_legal hd
  obtain ⟨a', ha', -⟩ := bankOf_of_legal ha
  exact ⟨d', a', by simp only [minvResult, hd', ha']⟩

theorem genmatResult_of_wellFormed {d : BankField} (h : (Instr.genmat d).WellFormed = true) (s : State) :
    ∃ d' : BankId, genmatResult d s = genmatBank d' s := by
  obtain ⟨d', hd', -⟩ := bankOf_of_legal h
  exact ⟨d', by simp only [genmatResult, hd']⟩

theorem mmulBanks_code_mem (d a b : BankId) (s : State) :
    (mmulBanks d a b s).code ∈ [0x00#8, 0x02#8, 0x06#8] := by
  unfold mmulBanks
  by_cases hvalid : ((s.mdim a).valid && (s.mdim b).valid) = true
  · by_cases hdim : (s.mdim a).cols = (s.mdim b).rows
    · simp [hvalid, hdim]
    · simp [hvalid, hdim, ErrorKind.code]
  · simp [hvalid, ErrorKind.code]

theorem minvBanks_code_mem (d a : BankId) (s : State) :
    (minvBanks d a s).code ∈ [0x00#8, 0x02#8, 0x03#8, 0x06#8] := by
  unfold minvBanks
  by_cases hvalid : (s.mdim a).valid = true
  · by_cases hdim : (s.mdim a).rows = (s.mdim a).cols
    · cases hinv : matInv (tables s.params) (s.mdim a).rows.toNat (s.matOf a) with
      | some x => simp only [if_pos hvalid, if_pos hdim, hinv]; exact .head _
      | none => simp only [if_pos hvalid, if_pos hdim, hinv]; exact .tail _ (.tail _ (.head _))
    · simp [hvalid, hdim, ErrorKind.code]
  · simp [hvalid, ErrorKind.code]

theorem genmatBank_code_mem (d : BankId) (s : State) : (genmatBank d s).code ∈ [0x00#8, 0x06#8] := by
  unfold genmatBank
  by_cases hkm : s.kmOk = true
  · simp [hkm]
  · simp [hkm, ErrorKind.code]

theorem encodeResult_code_mem (s : State) : (encodeResult s).code ∈ [0x00#8, 0x06#8] := by
  by_cases hstream : s.streamOk = true
  · rw [encodeResult_of_streamOk hstream]; exact .head _
  · rw [encodeResult_of_not_streamOk hstream]; exact .tail _ (.head _)

theorem decodeResult_code_mem (s : State) : (decodeResult s).code ∈ [0x00#8, 0x03#8, 0x04#8, 0x06#8] := by
  by_cases hstream : s.streamOk = true
  · rcases Nat.lt_or_ge (validCount s) s.k with hfew | hvalid
    · rw [decodeResult_of_validCount_lt hstream hfew]; simp [ErrorKind.code]
    · cases hinv : matInv (tables s.params) s.k (selectedRows s) with
      | some h => rw [decodeResult_of_matInv_eq_some hstream hvalid hinv]; simp
      | none => rw [decodeResult_of_matInv_eq_none hstream hvalid hinv]; simp [ErrorKind.code]
  · rw [decodeResult_of_not_streamOk hstream]; simp [ErrorKind.code]

/-- Settles O39: command by command; a well-formed command names banks, so ILLEGAL_CMD is not among them. -/
theorem errorCodesOfEachCommand : Obligations.ErrorCodesOfEachCommand := by
  unfold Obligations.ErrorCodesOfEachCommand
  intro i s t hwf hexec
  rw [errcode_of_exec hexec]
  cases i with
  | fadd => exact .head _
  | fmul => exact .head _
  | fmulx => exact .head _
  | fdiv => exact resultOr_code_mem _
  | finv => exact resultOr_code_mem _
  | mmul d a b =>
    obtain ⟨d', a', b', h⟩ := mmulResult_of_wellFormed hwf s
    rw [instrResult, h]
    exact mmulBanks_code_mem d' a' b' s
  | minv d a =>
    obtain ⟨d', a', h⟩ := minvResult_of_wellFormed hwf s
    rw [instrResult, h]
    exact minvBanks_code_mem d' a' s
  | genmat d =>
    obtain ⟨d', h⟩ := genmatResult_of_wellFormed hwf s
    rw [instrResult, h]
    exact genmatBank_code_mem d' s
  | encode => exact encodeResult_code_mem s
  | decode => exact decodeResult_code_mem s

end Sys2Proof.Machine
end

section
/-! PROOF. Steps and dropped writes (60_exceptions.md R151, R155, R157): every step answers a next state, each turn is
the event it names, and a write of the host is taken or dropped by the phase. -/

namespace Sys2Proof.Machine

/-! ### No step stops, and none changes the parameters -/

theorem State.params_softReset (s : State) : s.softReset.params = s.params := by
  obtain ⟨m, n, h⟩ := s.abort_frame
  rw [State.softReset, h]
  rfl

theorem State.params_hostWrite (s : State) (a : Addr) (w : Word) : (s.hostWrite a w).params = s.params := by
  rcases s.hostWrite_cases a w with h | ⟨u, h, hu⟩
  · rw [h]; rfl
  rw [h, State.setResp_params]
  rcases hu with ⟨-, rfl⟩ | ⟨-, rfl⟩ | ⟨-, rfl⟩ | ⟨-, -, rfl⟩ | ⟨-, r, -, rfl⟩ | ⟨-, b, rfl⟩
  · cases hw : w.getLsbD 0 with
    | true => rw [State.writeCtrl_softReset hw, State.params_softReset]
    | false => rw [State.writeCtrl_irqEn hw, State.setIrqEn_params]
  · rfl
  · rfl
  · rfl
  · cases r <;> rfl
  · rfl

theorem State.params_hostTurn (s : State) : s.hostTurn.params = s.params := by
  rcases s.hostTurn_cases with ⟨a, w, rest, -, h⟩ | ⟨l, r, n, h⟩
  · rw [h, State.params_hostWrite, State.setHost_params]
  · rw [h]

theorem params_complete (r : CmdResult) (s : State) : (complete r s).params = s.params := by
  obtain ⟨_, _, _, _, _, _, _, _, h⟩ := complete_frame r s
  rw [h]

/-- The engine's turn answers a next state in every phase, and keeps the parameters. -/
theorem exists_engineTurn_eq_next (s : State) : ∃ t, engineTurn s = .next t ∧ t.params = s.params := by
  cases hp : s.phase with
  | init => exact ⟨_, engineTurn_init s hp, rfl⟩
  | idle => exact ⟨_, engineTurn_idle s hp, rfl⟩
  | exec => exact ⟨_, engineTurn_exec s hp, params_complete _ s⟩

/-- Settles O43: by the turn at the head of the schedule, and by the phase where the schedule is used up. -/
theorem everyStepGoesOn : Obligations.EveryStepGoesOn := by
  unfold Obligations.EveryStepGoesOn
  intro s
  cases hs : s.sched with
  | nil =>
    by_cases hp : s.phase = .idle
    · exact ⟨_, step_idle hs hp, s.params_hostTurn⟩
    · rw [step_busy hs hp]
      exact exists_engineTurn_eq_next s
  | cons turn rest =>
    cases turn with
    | host => exact ⟨_, step_host hs, (s.setSched rest).params_hostTurn⟩
    | engine =>
      rw [step_engine hs]
      exact exists_engineTurn_eq_next (s.setSched rest)
    | hardReset => exact ⟨_, step_hardReset hs, rfl⟩

/-! ### What each turn does -/

/-- In phase EXEC the engine's turn is the meaning of the command that CMD decodes to (60_exceptions.md R152). -/
theorem engineTurn_of_decode {s : State} {i : Instr} (hp : s.phase = .exec) (hdec : decode s.cmd = .legal i) :
    engineTurn s = exec i s := by
  rw [engineTurn_exec s hp, exec_eq, commandResult, hdec]

theorem State.hostTurn_wait_busy {s : State} {rest : List HostOp} (h : s.host = .wait :: rest)
    (hb : s.statusWord.getLsbD 1 = true) : s.hostTurn = s.hostRead (regOffset .status) := by
  rw [State.statusWord_busy] at hb
  rw [State.hostTurn_wait h, if_pos hb]

theorem State.hostTurn_wait_done {s : State} {rest : List HostOp} (h : s.host = .wait :: rest)
    (hb : s.statusWord.getLsbD 1 = false) : s.hostTurn = (s.setHost rest).hostRead (regOffset .status) := by
  rw [State.statusWord_busy] at hb
  rw [State.hostTurn_wait h, hb]
  rfl

theorem State.hostTurn_waitReady_busy {s : State} {rest : List HostOp} (h : s.host = .waitReady :: rest)
    (hb : s.statusWord.getLsbD 0 = false ∨ s.statusWord.getLsbD 1 = true) :
    s.hostTurn = s.hostRead (regOffset .status) := by
  rw [State.statusWord_ready, State.statusWord_busy] at hb
  have hcond : (s.ready && !s.busy) = false := by rcases hb with hb | hb <;> simp [hb]
  rw [State.hostTurn_waitReady h, hcond]
  rfl

theorem State.hostTurn_waitReady_done {s : State} {rest : List HostOp} (h : s.host = .waitReady :: rest)
    (hr : s.statusWord.getLsbD 0 = true) (hb : s.statusWord.getLsbD 1 = false) :
    s.hostTurn = (s.setHost rest).hostRead (regOffset .status) := by
  rw [State.statusWord_ready] at hr
  rw [State.statusWord_busy] at hb
  rw [State.hostTurn_waitReady h, hr, hb]
  rfl

/-- Settles O7: the turn's owner by `engineNext` and `hostNext`, the host's operation by the head of its list. -/
theorem stepRunsTheDecodedCommand : Obligations.StepRunsTheDecodedCommand := by
  unfold Obligations.StepRunsTheDecodedCommand
  refine ⟨fun s i hp hturn hdec => ?_, fun s hturn => ?_, fun s hp hturn => ?_⟩
  · rw [step_of_engineNext hturn]
    exact engineTurn_of_decode (s := popTurn s) hp hdec
  · rw [step_of_hostNext hturn]
    have hnext {t : State} (h : (popTurn s).hostTurn = t) :
        (.next (popTurn s).hostTurn : Host.Outcome State Fault Refusal) = .next t := congrArg _ h
    exact ⟨fun a rest h => hnext (State.hostTurn_read h), fun a w rest h => hnext (State.hostTurn_write h),
      fun rest h => ⟨fun hb => hnext (State.hostTurn_wait_busy h hb), fun hb => hnext (State.hostTurn_wait_done h hb)⟩,
      fun rest h => ⟨fun hb => hnext (State.hostTurn_waitReady_busy h hb),
        fun hr hb => hnext (State.hostTurn_waitReady_done h hr hb)⟩,
      fun h => hnext (State.hostTurn_nil h)⟩
  · rw [step_of_engineNext hturn]
    exact engineTurn_idle (popTurn s) hp

/-! ### Writes by the phase -/

/-- While the phase is not IDLE a write of any target but CTRL and STATUS is dropped (60_exceptions.md R155). -/
theorem State.hostWrite_dropped {s : State} {a : Addr} {t : Target} (w : Word) (ht : target a = some t)
    (hp : s.phase ≠ .idle) (hctrl : a ≠ regOffset .ctrl) (hstatus : a ≠ regOffset .status) :
    s.hostWrite a w = s.dropWrite.setResp (some (.write false)) := by
  cases t with
  | buffer b => rw [s.hostWrite_mapped w ht, State.writeTarget, if_neg hp]
  | reg r =>
    obtain rfl := eq_regOffset_of_target ht
    exact State.hostWrite_busy w hp (fun h => hctrl (h ▸ rfl)) fun h => hstatus (h ▸ rfl)

/-- Settles O49: an aligned offset that is not reserved has a target, and any other has none. -/
theorem busyWritesAreDropped : Obligations.BusyWritesAreDropped := by
  unfold Obligations.BusyWritesAreDropped
  refine ⟨fun s addr w hp hal hmapped hctrl hstatus => ?_, fun s w => ⟨s.hostWrite_ctrl w, s.hostWrite_status w⟩,
    fun s addr w h => s.hostWrite_busError w ((target_eq_none_iff addr).mpr h)⟩
  have htarget : target addr ≠ none := by simp [target_eq_none_iff, hal, hmapped]
  obtain ⟨t, ht⟩ := Option.ne_none_iff_exists'.mp htarget
  exact State.hostWrite_dropped w ht hp hctrl hstatus

/-- Settles O48: a CMD write in phase IDLE is accepted, and CMD, the phase and the response are no input of a
command. -/
theorem cmdWriteIsAcceptedWhenIdle : Obligations.CmdWriteIsAcceptedWhenIdle := by
  unfold Obligations.CmdWriteIsAcceptedWhenIdle
  refine fun s w => ⟨fun hp => ?_, fun hp => State.hostWrite_busy (r := .cmd) w hp (by decide) (by decide)⟩
  have hwrite : s.hostWrite 0x018#16 w = { s with cmd := w, phase := .exec, resp := some (.write false) } :=
    State.hostWrite_idle (r := .cmd) w hp (by decide) (by decide)
  refine ⟨hwrite, ?_⟩
  rw [hwrite]
  exact commandResult_congr rfl rfl rfl rfl rfl rfl rfl rfl rfl rfl rfl rfl rfl w

end Sys2Proof.Machine
end

section
/-! PROOF. Reset (70_reset_and_hazards.md R180 to R184): what a hardware and a soft reset leave, and what the abort of a
running command does to its destination bytes. -/

namespace Sys2Proof.Machine

/-! ### Hardware reset -/

@[simp] theorem readByte_hardwareReset (s : State) (a : Nat) :
    (hardwareReset s).readByte a = Config.powerOnByte (s.resets + 1) a := rfl

@[simp] theorem State.readByte_reset (a : Nat) : State.reset.readByte a = Config.powerOnByte 0 a := rfl

theorem registersAtReset_reset : registersAtReset State.reset := registersAtReset_resetRegisters State.reset

theorem evalPoint_default : ∀ j, j < 32 → evalPoint Params.default j = BitVec.ofNat 8 j := by decide

theorem inv_reset : State.reset.Inv where
  params_ok := defaultParametersMeetTheirConstraint
  mem_wf := rfl
  rowCount_le := Nat.zero_le _
  errcode_produced := rfl
  init_registers _ := registersAtReset_reset

/-- Settles O42: the default parameters meet their constraint, and every register of the state is the reset value. -/
theorem invariantAtReset : Obligations.InvariantAtReset := by
  unfold Obligations.InvariantAtReset
  exact ⟨inv_reset, rfl, registersAtReset_reset, rfl, rfl, rfl, rfl, rfl, evalPoint_default, State.readByte_reset⟩

/-- Settles O60: the step is the hardware reset of the state with the turn taken off. -/
theorem hardwareResetForgetsBuffers : Obligations.HardwareResetForgetsBuffers := by
  unfold Obligations.HardwareResetForgetsBuffers
  intro s rest hsched
  exact ⟨_, step_hardReset hsched, registersAtReset_resetRegisters (s.setSched rest), rfl, rfl, rfl, rfl, rfl,
    readByte_hardwareReset (s.setSched rest)⟩

/-! ### Soft reset -/

theorem State.hostWrite_softReset {s : State} {w : Word} (hw : w.getLsbD 0 = true) :
    s.hostWrite 0x010#16 w = s.softReset.setResp (some (.write false)) :=
  (s.hostWrite_ctrl w).trans (congrArg (State.setResp · _) (State.writeCtrl_softReset hw))

theorem State.registersAtReset_softReset (s : State) : registersAtReset s.softReset :=
  registersAtReset_resetRegisters s.abort

/-- A soft reset does to the buffers what the abort does (70_reset_and_hazards.md R182 (3)). -/
theorem State.readByte_softReset (s : State) (a : Nat) : s.softReset.readByte a = s.abort.readByte a := rfl

theorem State.abort_of_ne_exec {s : State} (hp : s.phase ≠ .exec) : s.abort = s := if_neg hp

theorem State.abort_of_exec {s : State} (hp : s.phase = .exec) :
    s.abort = (s.storeBytes (freshCells s.draws (commandResult s.cmd s).stores)).setDraws
      (s.draws + (commandResult s.cmd s).stores.length) := if_pos hp

/-- Settles O58: the registers are those of `resetRegisters`, and outside phase EXEC there is nothing to abort. -/
theorem softResetKeepsBuffers : Obligations.SoftResetKeepsBuffers := by
  unfold Obligations.SoftResetKeepsBuffers
  intro s w hw
  rw [State.hostWrite_softReset hw]
  refine ⟨s.registersAtReset_softReset, rfl, rfl, rfl, s.params_softReset, fun hp a => ?_⟩
  calc s.softReset.readByte a
    _ = s.abort.readByte a := s.readByte_softReset a
    _ = s.readByte a := by rw [State.abort_of_ne_exec hp]

/-! ### The abort's destination bytes (70_reset_and_hazards.md R183) -/

/-- The draw that gives an offset its free value: the cells are drawn for in order, from `first` on. -/
def drawOf (first : Nat) (cells : List Host.Cell) (a : Nat) : Nat := first + (cells.map Prod.fst).idxOf a

theorem drawOf_bounds {first : Nat} {cells : List Host.Cell} {a : Nat} (ha : a ∈ cells.map Prod.fst) :
    first ≤ drawOf first cells a ∧ drawOf first cells a < first + cells.length := by
  have hlt := List.idxOf_lt_length_of_mem ha
  rw [List.length_map] at hlt
  exact ⟨Nat.le_add_right _ _, Nat.add_lt_add_left hlt _⟩

theorem drawOf_inj {first : Nat} {cells : List Host.Cell} {a b : Nat} (ha : a ∈ cells.map Prod.fst)
    (h : drawOf first cells a = drawOf first cells b) : a = b :=
  (List.idxOf_inj ha).mp (Nat.add_left_cancel h)

@[simp] theorem map_fst_freshCells (n : Nat) (cells : List Host.Cell) :
    (freshCells n cells).map Prod.fst = cells.map Prod.fst := by
  induction cells generalizing n with
  | nil => rfl
  | cons c cells ih => simp [freshCells, ih]

/-- A stored offset reads as the free value of its own draw: of two cells of one offset the first stays. -/
theorem Memory.get?_store_freshCells {cells : List Host.Cell} {a : Nat} (ha : a ∈ cells.map Prod.fst) (m : Memory)
    (n : Nat) : Memory.get? (Memory.store m (freshCells n cells)) a = some (Config.abortByte (drawOf n cells a)) := by
  induction cells generalizing n with
  | nil => cases ha
  | cons c cells ih =>
    rw [freshCells, Memory.store_cons]
    by_cases hc : c.1 = a
    · subst hc
      simp [Memory.get?_write_same, drawOf]
    · have hmem : a ∈ cells.map Prod.fst := (List.mem_cons.mp ha).resolve_left (Ne.symm hc)
      have hdraw : drawOf n (c :: cells) a = drawOf (n + 1) cells a := by
        simp only [drawOf, List.map_cons, List.idxOf_cons_ne _ hc]
        omega
      rw [Memory.get?_write_ne _ _ (Ne.symm hc), ih hmem, hdraw]

section
variable {s : State} (hp : s.phase = .exec) {a : Nat}
include hp

theorem State.readByte_abort_of_mem (ha : a ∈ (commandResult s.cmd s).stores.map Prod.fst) :
    s.abort.readByte a = Config.abortByte (drawOf s.draws (commandResult s.cmd s).stores a) := by
  rw [State.abort_of_exec hp, State.readByte_def]
  exact congrArg (Option.getD · _) (Memory.get?_store_freshCells ha s.mem s.draws)

theorem State.readByte_abort_of_not_mem (ha : a ∉ (commandResult s.cmd s).stores.map Prod.fst) :
    s.abort.readByte a = s.readByte a := by
  rw [State.abort_of_exec hp]
  refine State.readByte_storeBytes_of_not_mem s _ a fun c hc hca => ha ?_
  rw [← map_fst_freshCells s.draws]
  exact hca ▸ List.mem_map_of_mem hc

theorem State.draws_softReset_of_exec :
    s.softReset.draws = s.draws + (commandResult s.cmd s).stores.length := by
  rw [State.softReset, State.abort_of_exec hp]
  rfl

end

theorem mem_map_fst_matCells {rows cols : Nat} {addr : Nat → Nat → Nat} {x : Mat} {i j : Nat} (hi : i < rows)
    (hj : j < cols) : addr i j ∈ (matCells rows cols addr x).map Prod.fst :=
  List.mem_map_of_mem (f := Prod.fst) (mem_matCells.mpr ⟨i, j, hi, hj, rfl⟩)

/-- A command that completes with NONE stores to every byte of its destination. -/
theorem mem_stores_of_destination {i : Instr} {s : State} {e : Effect} (h : instrResult i s = .ok e) {a : Nat}
    (ha : destination i s a) : a ∈ e.stores.map Prod.fst := by
  cases i with
  | fadd => exact ha.elim
  | fmul => exact ha.elim
  | fdiv => exact ha.elim
  | finv => exact ha.elim
  | fmulx => exact ha.elim
  | mmul d x y =>
    obtain ⟨d', a', b', hd, hx, hy, -, -, -, rfl⟩ := mmulResult_ok h
    obtain ⟨bx, by', hbx, hby, r, c, hr, hc, rfl⟩ := ha
    obtain rfl := Option.some.inj (hx.symm.trans hbx)
    obtain rfl := Option.some.inj (hy.symm.trans hby)
    rw [bankOf_eq_some.mp hd]
    exact mem_map_fst_matCells hr hc
  | minv d x =>
    obtain ⟨d', a', z, hd, hx, -, -, -, rfl⟩ := minvResult_ok h
    obtain ⟨bx, hbx, r, c, hr, hc, rfl⟩ := ha
    obtain rfl := Option.some.inj (hx.symm.trans hbx)
    rw [bankOf_eq_some.mp hd]
    exact mem_map_fst_matCells hr hc
  | genmat d =>
    obtain ⟨d', hd, -, rfl⟩ := genmatResult_ok h
    obtain ⟨r, c, hr, hc, rfl⟩ := ha
    rw [bankOf_eq_some.mp hd]
    exact mem_map_fst_matCells hr hc
  | encode =>
    obtain ⟨-, rfl⟩ := encodeResult_ok h
    obtain ⟨j, r, hj, hr, rfl⟩ := ha
    exact mem_map_fst_matCells hj hr
  | decode =>
    obtain ⟨-, -, z, -, rfl⟩ := decodeResult_ok h
    obtain ⟨p, hplen, rfl⟩ := ha
    simp only [Effect.stores, dataCells, List.map_map, List.mem_map, List.mem_range]
    exact ⟨p, hplen, rfl⟩

theorem mem_stores_iff_destination {i : Instr} {s : State} {e : Effect} (h : instrResult i s = .ok e) (a : Nat) :
    a ∈ e.stores.map Prod.fst ↔ destination i s a := by
  refine ⟨fun ha => ?_, mem_stores_of_destination h⟩
  obtain ⟨c, hc, rfl⟩ := List.mem_map.mp ha
  exact instrResult_stores_destination h c hc

section
variable {s : State} (hp : s.phase = .exec)
include hp

/-- The abort of a command that would fail, or of an illegal word, changes no byte. -/
theorem State.readByte_abort_of_err {k : ErrorKind} (h : commandResult s.cmd s = .err k) (a : Nat) :
    s.abort.readByte a = s.readByte a :=
  State.readByte_abort_of_not_mem hp (by rw [h]; exact List.not_mem_nil)

/-- The abort of a command that would complete with NONE: each byte of the destination takes a draw of its own. -/
theorem State.exists_draw_of_abort {i : Instr} {e : Effect} (hcmd : commandResult s.cmd s = instrResult i s)
    (h : instrResult i s = .ok e) : ∃ draw : Nat → Nat,
      (∀ a, destination i s a → s.draws ≤ draw a ∧ draw a < s.softReset.draws ∧
        s.softReset.readByte a = Config.abortByte (draw a)) ∧
      ∀ a b, destination i s a → destination i s b → draw a = draw b → a = b := by
  have hstores : (commandResult s.cmd s).stores = e.stores := by rw [hcmd, h]; rfl
  have hmem {a : Nat} (ha : destination i s a) : a ∈ (commandResult s.cmd s).stores.map Prod.fst :=
    hstores ▸ mem_stores_of_destination h ha
  refine ⟨drawOf s.draws (commandResult s.cmd s).stores, fun a ha => ?_, fun a b ha _ hab => drawOf_inj (hmem ha) hab⟩
  obtain ⟨hle, hlt⟩ := drawOf_bounds (first := s.draws) (hmem ha)
  exact ⟨hle, State.draws_softReset_of_exec hp ▸ hlt,
    (s.readByte_softReset a).trans (State.readByte_abort_of_mem hp (hmem ha))⟩

end

/-- Settles O59: the abort stores to the offsets the command would store to, which are its destination when it would
complete with NONE and none otherwise. -/
theorem abortMakesOnlyTheDestinationUnspecified : Obligations.AbortMakesOnlyTheDestinationUnspecified := by
  unfold Obligations.AbortMakesOnlyTheDestinationUnspecified
  intro s w hp hw
  rw [State.hostWrite_softReset hw]
  refine ⟨rfl, rfl, rfl, ?_, fun i u hdec hexec => ?_⟩
  · rintro ⟨why, hdec⟩ a
    exact State.readByte_abort_of_err hp (k := .illegalCmd) (by rw [commandResult, hdec]) a
  · have hcmd : commandResult s.cmd s = instrResult i s := by rw [commandResult, hdec]
    rw [errcode_of_exec hexec]
    cases hr : instrResult i s with
    | err k =>
      have hkeep := State.readByte_abort_of_err hp (hcmd.trans hr)
      exact ⟨fun a _ => hkeep a, fun _ => hkeep, fun hnone => absurd hnone k.code_ne_zero⟩
    | ok e =>
      refine ⟨fun a ha => ?_, fun herr => absurd rfl herr, fun _ => State.exists_draw_of_abort hp hcmd hr⟩
      refine State.readByte_abort_of_not_mem hp fun hmem => ha ((mem_stores_iff_destination hr a).mp ?_)
      rwa [hcmd, hr] at hmem

end Sys2Proof.Machine
end

section
/-! PROOF. The engine's event (70_reset_and_hazards.md R181, R191): init-done, and that the event of phase INIT or EXEC
comes within the schedule unless a reset comes first. -/

namespace Sys2Proof.Machine

/-! ### The event -/

/-- Settles O45: at the engine's turn the step is the engine's, which in phase INIT is init-done. -/
theorem initDoneChangesOnlyThePhase : Obligations.InitDoneChangesOnlyThePhase := by
  unfold Obligations.InitDoneChangesOnlyThePhase
  intro s hp hturn
  rw [step_of_engineNext hturn]
  exact engineTurn_init (popTurn s) hp

@[simp] theorem commandResult_popTurn (w : Word) (s : State) : commandResult w (popTurn s) = commandResult w s :=
  commandResult_congr rfl rfl rfl rfl rfl rfl rfl rfl rfl rfl rfl rfl rfl w

theorem step_of_engineNext_exec {s : State} (hp : s.phase = .exec) (hturn : engineNext s) :
    step s = .next (complete (commandResult s.cmd s) (popTurn s)) := by
  rw [step_of_engineNext hturn, engineTurn_exec (popTurn s) hp, commandResult_popTurn]
  rfl

/-- At the engine's turn in phase INIT or EXEC the step is the phase's own event, and reaches phase IDLE. -/
theorem exists_step_of_engineNext {s : State} (hp : s.phase ≠ .idle) (hturn : engineNext s) :
    ∃ t : State, step s = .next t ∧ t.phase = .idle ∧ (s.phase = .init → t = { popTurn s with phase := .idle }) ∧
      (s.phase = .exec → t = complete (commandResult s.cmd s) (popTurn s)) := by
  cases h : s.phase with
  | idle => exact absurd h hp
  | init => exact ⟨_, initDoneChangesOnlyThePhase s h hturn, rfl, fun _ => rfl, nofun⟩
  | exec => exact ⟨_, step_of_engineNext_exec h hturn, rfl, nofun, fun _ => rfl⟩

/-! ### The schedule and the host's list along a step -/

theorem State.softReset_frame (s : State) : ∃ m n, s.softReset = resetRegisters { s with mem := m, draws := n } := by
  obtain ⟨m, n, h⟩ := s.abort_frame
  exact ⟨m, n, congrArg resetRegisters h⟩

/-- A write of the port leaves the schedule and what the host has still to issue. -/
theorem State.sched_host_hostWrite (s : State) (a : Addr) (w : Word) :
    (s.hostWrite a w).sched = s.sched ∧ (s.hostWrite a w).host = s.host := by
  rcases s.hostWrite_cases a w with h | ⟨u, h, hu⟩
  · rw [h]; exact ⟨rfl, rfl⟩
  rw [h, State.setResp_sched, State.setResp_host]
  rcases hu with ⟨-, rfl⟩ | ⟨-, rfl⟩ | ⟨-, rfl⟩ | ⟨-, -, rfl⟩ | ⟨-, r, -, rfl⟩ | ⟨-, b, rfl⟩
  · cases hw : w.getLsbD 0 with
    | true =>
      obtain ⟨m, n, hreset⟩ := s.softReset_frame
      rw [State.writeCtrl_softReset hw, hreset]
      exact ⟨rfl, rfl⟩
    | false => rw [State.writeCtrl_irqEn hw]; exact ⟨rfl, rfl⟩
  · exact ⟨rfl, rfl⟩
  · exact ⟨rfl, rfl⟩
  · exact ⟨rfl, rfl⟩
  · cases r <;> exact ⟨rfl, rfl⟩
  · exact ⟨rfl, rfl⟩

theorem State.sched_hostTurn (s : State) : s.hostTurn.sched = s.sched := by
  rcases s.hostTurn_cases with ⟨a, w, rest, -, h⟩ | ⟨l, r, n, h⟩
  · rw [h]; exact ((s.setHost rest).sched_host_hostWrite a w).1
  · rw [h]

@[simp] theorem State.host_hostRead (s : State) (a : Addr) : (s.hostRead a).host = s.host := by
  obtain ⟨r, n, h⟩ := s.hostRead_frame a
  rw [h]

/-- A turn of the host issues nothing new: its list stays or loses its head (20_memory.md R59). -/
theorem State.host_hostTurn_suffix (s : State) : s.hostTurn.host <:+ s.host := by
  cases hh : s.host with
  | nil => rw [State.hostTurn_nil hh, hh]
  | cons op rest =>
    have hkept : s.host <:+ op :: rest := by rw [hh]
    have hissued : rest <:+ op :: rest := List.suffix_cons op rest
    cases op with
    | read a => rw [State.hostTurn_read hh, State.host_hostRead]; exact hissued
    | write a w => rw [State.hostTurn_write hh, ((s.setHost rest).sched_host_hostWrite a w).2]; exact hissued
    | wait =>
      rw [State.hostTurn_wait hh, State.host_hostRead]
      split
      · exact hkept
      · exact hissued
    | waitReady =>
      rw [State.hostTurn_waitReady hh, State.host_hostRead]
      split
      · exact hissued
      · exact hkept

theorem sched_complete (r : CmdResult) (s : State) : (complete r s).sched = s.sched := by
  obtain ⟨_, _, _, _, _, _, _, _, h⟩ := complete_frame r s
  rw [h]

/-- Every step takes its turn off the schedule and changes it in no other way. -/
theorem sched_of_step {s t : State} (h : step s = .next t) : t.sched = s.sched.tail := by
  rcases step_turn_cases h with ⟨-, rfl⟩ | ⟨-, he⟩ | ⟨-, rfl⟩
  · exact (popTurn s).sched_hostTurn
  · rcases engineTurn_cases he with ⟨-, rfl⟩ | ⟨-, rfl⟩ | ⟨-, rfl⟩
    · rfl
    · rfl
    · exact sched_complete _ (popTurn s)
  · rfl

/-! ### The event comes -/

/-- The host has no soft reset still to issue. -/
def State.NoSoftReset (s : State) : Prop := ∀ w, HostOp.write 0x010#16 w ∈ s.host → w.getLsbD 0 = false

theorem State.noSoftReset_hostTurn {s : State} (h : s.NoSoftReset) : s.hostTurn.NoSoftReset :=
  fun w hw => h w (s.host_hostTurn_suffix.subset hw)

/-- Without a soft reset a turn of the host leaves phase INIT and EXEC as they are (10_state.md R21). -/
theorem State.phase_hostTurn_of_noSoftReset {s : State} (hp : s.phase ≠ .idle) (h : s.NoSoftReset) :
    s.hostTurn.phase = s.phase := by
  by_contra hne
  obtain ⟨a, w, rest, hh, ⟨rfl, hw, -⟩ | ⟨-, hidle, -⟩⟩ := State.phase_hostTurn hne
  · have hmem : HostOp.write 0x010#16 w ∈ s.host := hh ▸ List.mem_cons_self
    rw [h w hmem] at hw
    cases hw
  · exact hp hidle

/-- While no reset comes, a run within the schedule reaches the engine's turn in the same phase, and a running command
keeps its result: by induction on the schedule, whose turns before the engine's are the host's. -/
theorem exists_run_engineNext {s : State} (hp : s.phase ≠ .idle) (hhost : s.NoSoftReset)
    (hreset : Turn.hardReset ∉ s.sched) :
    ∃ n, n ≤ s.sched.length ∧ ∃ u : State, Sys2Proof.core.run n s = .next u ∧ u.phase = s.phase ∧ engineNext u ∧
      (s.phase = .exec → commandResult u.cmd u = commandResult s.cmd s) := by
  induction hs : s.sched generalizing s with
  | nil => exact ⟨0, Nat.zero_le _, s, rfl, rfl, .inr ⟨hs, hp⟩, fun _ => rfl⟩
  | cons turn rest ih =>
    rw [hs] at hreset
    cases turn with
    | engine => exact ⟨0, Nat.zero_le _, s, rfl, rfl, .inl ⟨rest, hs⟩, fun _ => rfl⟩
    | hardReset => exact absurd List.mem_cons_self hreset
    | host =>
      have hstep : step s = .next (popTurn s).hostTurn := step_of_hostNext (.inl ⟨rest, hs⟩)
      have hphase : (popTurn s).hostTurn.phase = s.phase :=
        State.phase_hostTurn_of_noSoftReset (s := popTurn s) hp hhost
      have hsched : (popTurn s).hostTurn.sched = rest := by rw [sched_of_step hstep, hs, List.tail_cons]
      obtain ⟨n, hn, u, hrun, huphase, hturn, hresult⟩ := ih (hphase ▸ hp)
        (State.noSoftReset_hostTurn (s := popTurn s) hhost) (hsched ▸ fun h => hreset (.tail _ h)) hsched
      refine ⟨n + 1, Nat.succ_le_succ hn, u, (core_run_succ hstep n).trans hrun, huphase.trans hphase, hturn,
        fun hexec => ?_⟩
      have hundisturbed := (runningCommandIsUndisturbed (popTurn s) hexec (hphase.trans hexec)).2
      rw [commandResult_popTurn] at hundisturbed
      exact (hresult (hphase.trans hexec)).trans hundisturbed

/-- From every state a run of at most one step more than the schedule is long reaches phase IDLE. -/
theorem exists_run_idle (s : State) :
    ∃ n, n ≤ s.sched.length + 1 ∧ ∃ t : State, Sys2Proof.core.run n s = .next t ∧ t.phase = .idle := by
  induction hs : s.sched generalizing s with
  | nil =>
    by_cases hp : s.phase = .idle
    · exact ⟨0, Nat.zero_le _, s, rfl, hp⟩
    · obtain ⟨t, hstep, hidle, -, -⟩ := exists_step_of_engineNext hp (.inr ⟨hs, hp⟩)
      exact ⟨1, Nat.le_refl _, t, core_run_succ hstep 0, hidle⟩
  | cons turn rest ih =>
    obtain ⟨u, hstep, -⟩ := everyStepGoesOn s
    have hsched : u.sched = rest := by rw [sched_of_step hstep, hs, List.tail_cons]
    obtain ⟨n, hn, t, hrun, hidle⟩ := ih u hsched
    exact ⟨n + 1, Nat.succ_le_succ hn, t, (core_run_succ hstep n).trans hrun, hidle⟩

/-- Settles O46: the run to the engine's turn, and the event of the phase there. -/
theorem engineEventComes : Obligations.EngineEventComes := by
  unfold Obligations.EngineEventComes
  refine ⟨exists_run_idle, fun s hp hhost hreset => ?_⟩
  obtain ⟨n, hn, u, hrun, huphase, hturn, hresult⟩ := exists_run_engineNext hp hhost hreset
  obtain ⟨t, hstep, hidle, hinit, hexec⟩ := exists_step_of_engineNext (huphase ▸ hp) hturn
  refine ⟨n, hn, u, t, hrun, huphase, hturn, hstep, hidle, fun h => hinit (huphase.trans h), fun h => ?_⟩
  rw [hexec (huphase.trans h), hresult h]

end Sys2Proof.Machine
end

section
/-! PROOF. Every step keeps the invariant of the machine (10_state.md section 2, 60_exceptions.md R150 and R152,
70_reset_and_hazards.md R180 and R186): each event a step can be keeps it. -/

namespace Sys2Proof.Machine

/-! ### The engine's events and the resets -/

/-- UNKNOWN_WORD alone has a code that is not produced (60_exceptions.md R150). -/
theorem producedCode_code {k : ErrorKind} (h : k ≠ .unknownWord) : producedCode k.code = true := by
  cases k with
  | unknownWord => exact absurd rfl h
  | _ => rfl

/-- The register part of a reset needs nothing of the registers. -/
theorem inv_resetRegisters {s : State} (hparams : s.params.ok = true) (hmem : Memory.wf s.mem = true) :
    (resetRegisters s).Inv where
  params_ok := hparams
  mem_wf := hmem
  rowCount_le := Nat.zero_le _
  errcode_produced := rfl
  init_registers _ := registersAtReset_resetRegisters s

section
variable {s : State} (h : s.Inv)
include h

/-- The invariant does not read IRQ_EN, OVERRUN and the model's own fields but the number of resets. -/
theorem State.Inv.frame (i o : Bool) (l : List HostOp) (sc : List Turn) (r : Option Response) (n : Nat) :
    ({ s with irqEn := i, overrun := o, host := l, sched := sc, resp := r, draws := n } : State).Inv :=
  ⟨h.params_ok, h.mem_wf, h.rowCount_le, h.errcode_produced, h.init_registers⟩

/-- Outside phase INIT the invariant reads the parameters, the memory, ROW_COUNT and ERRCODE only. -/
theorem State.Inv.of_ne_init {t : State} (hphase : t.phase ≠ .init) (hparams : t.params = s.params)
    (hmem : Memory.wf t.mem = true) (hrow : t.rowCount = s.rowCount) (hcode : t.errcode = s.errcode) : t.Inv where
  params_ok := hparams ▸ h.params_ok
  mem_wf := hmem
  rowCount_le := hrow ▸ h.rowCount_le
  errcode_produced := hcode ▸ h.errcode_produced
  init_registers hinit := absurd hinit hphase

theorem State.Inv.popTurn : (popTurn s).Inv := h.frame _ _ _ _ _ _

theorem State.Inv.initDone : (initDone s).Inv := h.of_ne_init nofun rfl h.mem_wf rfl rfl

theorem State.Inv.hardwareReset : (hardwareReset s).Inv :=
  inv_resetRegisters (s := { s with mem := [], resets := s.resets + 1 }) h.params_ok Memory.wf_nil

theorem State.Inv.softReset : s.softReset.Inv :=
  inv_resetRegisters (s.params_softReset ▸ h.params_ok) (wf_abort s h.mem_wf)

theorem State.Inv.complete_err {k : ErrorKind} (hk : k ≠ .unknownWord) : (complete (.err k) s).Inv where
  params_ok := h.params_ok
  mem_wf := h.mem_wf
  rowCount_le := h.rowCount_le
  errcode_produced := producedCode_code hk
  init_registers := nofun

theorem State.Inv.complete_instrResult (i : Instr) : (complete (instrResult i s) s).Inv := by
  have hmem := wf_complete_instrResult i s h.mem_wf
  have hparams := params_complete (instrResult i s) s ▸ h.params_ok
  cases hr : instrResult i s with
  | err k => exact h.complete_err (instrResult_err_ne_unknownWord hr)
  | ok e =>
    rw [hr] at hmem hparams
    exact ⟨hparams, hmem, rowCount_applyEffect_le h.rowCount_le hr, rfl, nofun⟩

/-- The completion of any word, legal or not. -/
theorem State.Inv.complete_commandResult (w : Word) : (complete (commandResult w s) s).Inv := by
  unfold commandResult
  cases decode w with
  | legal i => exact h.complete_instrResult i
  | illegal _ => exact h.complete_err (by decide)

/-! ### The host's turn -/

theorem State.Inv.writeCtrl (w : Word) : (s.writeCtrl w).Inv := by
  cases hw : w.getLsbD 0 with
  | true => rw [State.writeCtrl_softReset hw]; exact h.softReset
  | false => rw [State.writeCtrl_irqEn hw]; exact h.frame _ _ _ _ _ _

/-- A STATUS write clears bits, so in phase INIT DONE and ERROR stay clear. -/
theorem State.Inv.writeStatus (w : Word) : (s.writeStatus w).Inv where
  params_ok := h.params_ok
  mem_wf := h.mem_wf
  rowCount_le := h.rowCount_le
  errcode_produced := h.errcode_produced
  init_registers hinit := by
    obtain ⟨hdone, herror, hrest⟩ := h.init_registers hinit
    refine ⟨?_, ?_, hrest⟩
    · show (s.done && !w.getLsbD 2) = false
      rw [hdone, Bool.false_and]
    · show (s.error && !w.getLsbD 3) = false
      rw [herror, Bool.false_and]

/-- A register write in phase IDLE leaves phase IDLE or, by acceptance, EXEC, and writes no memory, ROW_COUNT or
ERRCODE. -/
theorem State.Inv.writeIdleReg (hp : s.phase = .idle) (r : Reg) (w : Word) : (s.writeIdleReg r w).Inv := by
  have hphase : (s.writeIdleReg r w).phase ≠ .init := by
    by_cases hr : r = .cmd
    · subst hr; exact nofun
    · rw [State.writeIdleReg_phase w hr, hp]; decide
  cases r <;> exact h.of_ne_init hphase rfl h.mem_wf rfl rfl

theorem State.Inv.writeBufferWord (hp : s.phase = .idle) {a : Addr} {b : Nat} (ht : target a = some (.buffer b))
    (w : Word) : (s.writeBufferWord b w).Inv :=
  h.of_ne_init (hp ▸ nofun) rfl (wf_writeBufferWord s w ht h.mem_wf) rfl rfl

/-- A write by its target: CTRL and STATUS in every phase, the rest in phase IDLE and dropped else
(60_exceptions.md R155). -/
theorem State.Inv.writeTarget {a : Addr} {t : Target} (ht : target a = some t) (w : Word) :
    (s.writeTarget t w).Inv := by
  have hidle (u : State) (hu : s.phase = .idle → u.Inv) : (if s.phase = .idle then u else s.dropWrite).Inv := by
    split
    · exact hu ‹_›
    · exact h.frame _ _ _ _ _ _
  cases t with
  | buffer b => exact hidle _ fun hp => h.writeBufferWord hp ht w
  | reg r =>
    cases r with
    | ctrl => exact h.writeCtrl w
    | status => exact h.writeStatus w
    | _ => exact hidle _ fun hp => h.writeIdleReg hp _ w

theorem State.Inv.hostWrite (a : Addr) (w : Word) : (s.hostWrite a w).Inv := by
  cases ht : target a with
  | none => rw [s.hostWrite_busError w ht]; exact h.frame _ _ _ _ _ _
  | some t => rw [s.hostWrite_mapped w ht]; exact (h.writeTarget ht w).frame _ _ _ _ _ _

theorem State.Inv.hostTurn : s.hostTurn.Inv := by
  rcases s.hostTurn_cases with ⟨a, w, rest, -, ht⟩ | ⟨l, r, n, ht⟩
  · rw [ht]; exact State.Inv.hostWrite (s := s.setHost rest) (h.frame _ _ _ _ _ _) a w
  · rw [ht]; exact h.frame _ _ _ _ _ _

end

/-- Settles O41: a step is one of five events on the state with its turn taken off, and each of them keeps the
invariant. -/
theorem invariantKeptByEveryStep : Obligations.InvariantKeptByEveryStep := by
  unfold Obligations.InvariantKeptByEveryStep
  intro s t h hstep
  have hpop : (popTurn s).Inv := h.popTurn
  rcases step_cases hstep with rfl | ⟨-, rfl⟩ | ⟨-, rfl⟩ | ⟨-, rfl⟩ | rfl
  · exact hpop.hostTurn
  · exact hpop.initDone
  · exact hpop
  · exact hpop.complete_commandResult _
  · exact hpop.hardwareReset

end Sys2Proof.Machine
end

section
/-! PROOF. How a command ends, by its result (60_exceptions.md R152, R153). -/

namespace Sys2Proof.Machine

/-- The completion of a command whose result is an error (60_exceptions.md R153). -/
theorem exec_of_err {i : Instr} {s : State} {k : ErrorKind} (h : instrResult i s = .err k) :
    exec i s = .next (failed k.code s) := by
  rw [exec_eq, h, complete_err]
  rfl

/-- The completion of a field command from the value of its function. -/
theorem exec_of_result {i : Instr} {s : State} {r : Byte} (h : instrResult i s = .ok (.result r)) :
    exec i s = .next (succeeded { s with result := r }) := by
  rw [exec_eq, h, complete_result]

/-- A completion leaves every byte that its effect does not list. -/
theorem readByte_complete_ok_of_not_mem (e : Effect) (s : State) {y : Nat} (h : ∀ c ∈ e.stores, c.1 ≠ y) :
    (complete (.ok e) s).readByte y = s.readByte y := by
  rw [complete_ok, ← readByte_applyEffect_of_not_mem e s h]
  exact State.readByte_congr rfl rfl y

end Sys2Proof.Machine
end

section
/-! PROOF. The field commands that read the tables (40_field.md R94 to R96): what each writes, and that the table
product is the product without tables. -/

namespace Sys2Proof.Machine

/-- Settles O15: multiplying powers of FIELD_GEN adds their exponents. -/
theorem tableProductEqualsShiftReduce : Obligations.TableProductEqualsShiftReduce := by
  unfold Obligations.TableProductEqualsShiftReduce
  exact fun P hok => fmul_eq_fmulx (primitive_of_ok hok)

/-- Settles O9: FMUL has no check, and its result is a RESULT write of the table product. -/
theorem fmulWritesTableProduct : Obligations.FmulWritesTableProduct := by
  unfold Obligations.FmulWritesTableProduct
  exact ⟨rfl, fun s => exec_of_result (i := .fmul) rfl⟩

/-- Settles O10: the divisor is tested first, so a zero dividend matters only for the quotient. -/
theorem fdivWritesQuotientOrDivByZero : Obligations.FdivWritesQuotientOrDivByZero := by
  unfold Obligations.FdivWritesQuotientOrDivByZero
  refine ⟨rfl, fun s hzero => exec_of_err (k := .divByZero) ?_, fun s hne => exec_of_result ?_⟩
  · rw [instrResult, fdivResult, fdiv, if_pos hzero, resultOr]
  · rw [instrResult, fdivResult, fdiv_of_ne_zero _ _ hne, resultOr, fquot]

/-- Settles O11: the operand is tested for zero before the table is read. -/
theorem finvWritesInverseOrDivByZero : Obligations.FinvWritesInverseOrDivByZero := by
  unfold Obligations.FinvWritesInverseOrDivByZero
  refine ⟨rfl, fun s hzero => exec_of_err (k := .divByZero) ?_, fun s hne => exec_of_result ?_⟩
  · rw [instrResult, finvResult, finv, if_pos hzero, resultOr]
  · rw [instrResult, finvResult, finv, if_neg hne, resultOr]

end Sys2Proof.Machine
end

section
/-! PROOF. The matrix commands (41_matrix.md R111, R112, R114): the checks of MMUL and MINV on shapes, and what a
successful command leaves in its bank, its MDIM and every other byte. -/

namespace Sys2Proof.Machine

/-! ### The checks on shapes (41_matrix.md R110, 60_exceptions.md R154) -/

theorem Shape.not_valid_iff (sh : Shape) : ¬sh.valid = true ↔
    sh.rows.toNat < 1 ∨ 32 < sh.rows.toNat ∨ sh.cols.toNat < 1 ∨ 32 < sh.cols.toNat := by
  rw [sh.valid_iff]
  omega

theorem Shape.of_toNat (rows cols : BitVec 6) : Shape.of rows.toNat cols.toNat = { rows := rows, cols := cols } := by
  simp [Shape.of]

section
variable {s : State} {fd fa fb : BankField} {d a b : BankId} (hd : fd.toNat = d.val) (ha : fa.toNat = a.val)
include hd ha

theorem minvResult_eq_minvBanks : minvResult fd fa s = minvBanks d a s := by
  simp only [minvResult, bankOf_eq_some.mpr hd, bankOf_eq_some.mpr ha]

theorem minvResult_of_not_valid (hvalid : ¬(s.mdim a).valid = true) : minvResult fd fa s = .err .paramRange := by
  rw [minvResult_eq_minvBanks hd ha, minvBanks, if_neg hvalid]

theorem minvResult_of_not_square (hvalid : (s.mdim a).valid = true) (hdim : (s.mdim a).rows ≠ (s.mdim a).cols) :
    minvResult fd fa s = .err .dimMismatch := by
  rw [minvResult_eq_minvBanks hd ha, minvBanks, if_pos hvalid, if_neg hdim]

variable (hb : fb.toNat = b.val)
include hb

theorem mmulResult_eq_mmulBanks : mmulResult fd fa fb s = mmulBanks d a b s := by
  simp only [mmulResult, bankOf_eq_some.mpr hd, bankOf_eq_some.mpr ha, bankOf_eq_some.mpr hb]

theorem mmulResult_of_not_valid (hvalid : ¬((s.mdim a).valid = true ∧ (s.mdim b).valid = true)) :
    mmulResult fd fa fb s = .err .paramRange := by
  rw [mmulResult_eq_mmulBanks hd ha hb, mmulBanks, if_neg (by rwa [Bool.and_eq_true])]

variable (hvalid : (s.mdim a).valid = true ∧ (s.mdim b).valid = true)
include hvalid

theorem mmulResult_of_mismatch (hdim : (s.mdim a).cols ≠ (s.mdim b).rows) :
    mmulResult fd fa fb s = .err .dimMismatch := by
  rw [mmulResult_eq_mmulBanks hd ha hb, mmulBanks, if_pos (by rwa [Bool.and_eq_true]), if_neg hdim]

theorem mmulResult_eq_ok (hdim : (s.mdim a).cols = (s.mdim b).rows) : mmulResult fd fa fb s =
    .ok (bankEffect d (s.mdim a).rows.toNat (s.mdim b).cols.toNat
      (matMul (tables s.params) (s.mdim a).rows.toNat (s.mdim a).cols.toNat (s.mdim b).cols.toNat
        (s.matOf a) (s.matOf b))) := by
  rw [mmulResult_eq_mmulBanks hd ha hb, mmulBanks, if_pos (by rwa [Bool.and_eq_true]), if_pos hdim]

end

/-- Settles O20: both commands test the shapes' ranges before they compare dimensions. -/
theorem matrixShapeChecks : Obligations.MatrixShapeChecks := by
  unfold Obligations.MatrixShapeChecks
  intro s fd fa fb d a b hd ha hb bad
  have hbad (sh : Shape) : bad sh ↔ ¬sh.valid = true := sh.not_valid_iff.symm
  simp only [hbad, not_not, ← not_and_or]
  refine ⟨fun hvalid => ?_, fun hva hvb hdim => ?_, fun hvalid => ?_, fun hvalid hdim => ?_⟩
  · exact exec_of_err (i := .mmul fd fa fb) (mmulResult_of_not_valid hd ha hb hvalid)
  · exact exec_of_err (i := .mmul fd fa fb) (mmulResult_of_mismatch hd ha hb ⟨hva, hvb⟩ hdim)
  · exact exec_of_err (i := .minv fd fa) (minvResult_of_not_valid hd ha hvalid)
  · exact exec_of_err (i := .minv fd fa) (minvResult_of_not_square hd ha hvalid hdim)

/-! ### What a successful command leaves -/

/-- A matrix command that succeeds writes its result to the cells inside the new shape, its MDIM and STATUS only
(10_state.md R36). -/
theorem exec_of_bankEffect {i : Instr} {s : State} {d : BankId} {rows cols : Nat} {x : Mat} {shape : Shape}
    (hshape : Shape.of rows cols = shape) (hrows : rows ≤ 32) (hcols : cols ≤ 32)
    (h : instrResult i s = .ok (bankEffect d rows cols x)) : ∃ m : Memory,
      let t := succeeded (({ s with mem := m }).setMdim d shape)
      exec i s = .next t ∧
      (∀ r c, r < rows → c < cols → t.readByte (bankAddr d.val r c) = x.entry r c) ∧
      ∀ y, (∀ r c, r < rows → c < cols → y ≠ bankAddr d.val r c) → t.readByte y = s.readByte y := by
  subst hshape
  refine ⟨_, (exec_eq i s).trans (by rw [h, complete_ok]; rfl), fun r c hr hc => ?_, fun y hy => ?_⟩
  · exact (State.readByte_congr rfl rfl _).trans (readByte_complete_bankEffect d x s hrows hcols hr hc)
  · refine (State.readByte_congr rfl rfl y).trans
      (readByte_complete_ok_of_not_mem (bankEffect d rows cols x) s fun cell hcell => ?_)
    obtain ⟨r, c, hr, hc, rfl⟩ := mem_matCells.mp hcell
    exact (hy r c hr hc).symm

/-- Settles O19: the operands are read from the state before the command, whatever banks coincide. -/
theorem mmulWritesProduct : Obligations.MmulWritesProduct := by
  unfold Obligations.MmulWritesProduct
  intro s fd fa fb d a b hd ha hb hra hra32 hca hca32 hcb hcb32 hdim
  have hrb : (s.mdim b).rows.toNat = (s.mdim a).cols.toNat := by rw [hdim]
  have hvalid : (s.mdim a).valid = true ∧ (s.mdim b).valid = true := by
    rw [Shape.valid_iff, Shape.valid_iff]
    omega
  obtain ⟨m, hexec, hcells, hframe⟩ := exec_of_bankEffect (i := .mmul fd fa fb) (Shape.of_toNat _ _) hra32 hcb32
    (mmulResult_eq_ok hd ha hb hvalid hdim)
  refine ⟨m, hexec, fun i j hi hj => ?_, hframe⟩
  rw [hcells i j hi hj, matMul_entry _ _ _ hi hj]
  refine congrArg fsum (List.map_congr_left fun x hx => ?_)
  have hx := List.mem_range.mp hx
  rw [s.entry_matOf hi hx, s.entry_matOf (hrb ▸ hx) hj]

/-- Settles O21: MINV's result is that of the elimination. -/
theorem minvWritesEliminationResult : Obligations.MinvWritesEliminationResult := by
  unfold Obligations.MinvWritesEliminationResult
  intro s fd fa d a hd ha hn hn32 hsquare
  have hcols : (s.mdim a).cols.toNat = (s.mdim a).rows.toNat := by rw [hsquare]
  have hvalid : (s.mdim a).valid = true := by
    rw [Shape.valid_iff]
    omega
  refine ⟨fun hnone => ?_, fun x hx => ?_⟩
  · exact exec_of_err (i := .minv fd fa) (minvResult_eq_singular hd ha hvalid hsquare hnone)
  · exact exec_of_bankEffect (i := .minv fd fa) (Shape.of_toNat _ _) hn32 hn32
      (minvResult_eq_ok hd ha hvalid hsquare hx)

theorem genmatResult_eq_ok {s : State} {fd : BankField} {d : BankId} (hd : fd.toNat = d.val) (hkm : s.kmOk = true) :
    genmatResult fd s =
      .ok (bankEffect d s.total s.k (genRows s.params (tables s.params) s.k (List.range s.total))) := by
  simp only [genmatResult, bankOf_eq_some.mpr hd, genmatBank, if_pos hkm]

/-- The rows of the whole generator matrix, by their index. -/
theorem entry_genRows_range (P : Params) (T : Tables) {k n j c : Nat} (hj : j < n) (hc : c < k) :
    (genRows P T k (List.range n)).entry j c = genEntry P T k j c := by
  rw [Mat.entry_genRows P T k _ (by rwa [List.length_range]) hc, List.getElem_range]

/-- Settles O23: the bank holds the entries of G, whose rows from k on are the Lagrange products. -/
theorem genmatWritesGenerator : Obligations.GenmatWritesGenerator := by
  unfold Obligations.GenmatWritesGenerator
  intro s fd d hd hk hkm
  obtain ⟨m, hexec, hcells, hframe⟩ := exec_of_bankEffect (i := .genmat fd) rfl hkm (by omega)
    (genmatResult_eq_ok hd (s.kmOk_iff.mpr ⟨hk, hkm⟩))
  have hentry {j c : Nat} (hj : j < s.k + s.m) (hc : c < s.k) :=
    (hcells j c hj hc).trans (entry_genRows_range s.params (tables s.params) hj hc)
  exact ⟨m, hexec, fun j c hj hc => (hentry (Nat.lt_add_right s.m hj) hc).trans (if_pos hj),
    fun j c hkj hj hc => (hentry hj hc).trans (if_neg hkj.not_gt), hframe⟩

end Sys2Proof.Machine
end

section
/-! PROOF. What ENCODE and DECODE write (42_reed_solomon.md R132 to R137) and leave unchanged. -/

namespace Sys2Proof.Machine

/-- Settles O27: the codeword is `readByte_exec_encode`, and the completion stores to CW only. -/
theorem encodeWritesCodeword : Obligations.EncodeWritesCodeword := by
  unfold Obligations.EncodeWritesCodeword
  intro s hk hkm hlen
  have hstream := State.streamOk_of_bounds hk hkm hlen
  have hexec := exec_encode_of_streamOk hstream
  refine ⟨_, hexec, fun j r hj hr => readByte_exec_encode hstream hexec hj hr, fun y hy => ?_⟩
  exact (State.readByte_congr rfl rfl y).trans (s.readByte_store_matCells_of_ne (codewordColumns s) hy)

/-- A successful DECODE writes DATA, ROW_COUNT and STATUS only. -/
theorem complete_data (cells : List Host.Cell) (rc : BitVec 16) (s : State) :
    complete (.ok (.data cells rc)) s =
      succeeded { s with mem := Memory.store s.mem cells, rowCount := rc } :=
  complete_ok _ s

/-- Row c of H applied to the selected columns at row r (42_reed_solomon.md R134). -/
theorem entry_recoveredColumns {s : State} (h : Mat) (hlen : s.selected.length = s.k) {c r : Nat} (hc : c < s.k)
    (hr : r < s.rc) : (recoveredColumns s h).entry c r = fsum ((List.range s.k).map fun i =>
      fmul (tables s.params) (h.entry c i) (s.readByte (cwAddr (s.selected.getD i 0) r))) := by
  rw [recoveredColumns, matMul_entry _ _ _ hc hr]
  refine congrArg fsum (List.map_congr_left fun i hi => ?_)
  have hi : i < s.selected.length := hlen ▸ List.mem_range.mp hi
  rw [s.entry_survivors hi hr, List.getD_eq_getElem _ _ hi]

/-- Settles O31: the columns of the statement are `State.selected`, and DECODE ends as the elimination does. -/
theorem decodeWritesRecoveredData : Obligations.DecodeWritesRecoveredData := by
  unfold Obligations.DecodeWritesRecoveredData
  intro s sel hk hkm hlen hsel hsellen
  obtain rfl : sel = s.selected := hsel
  have hstream := State.streamOk_of_bounds hk hkm hlen
  have hvalid : s.k ≤ validCount s := by
    rw [State.selected, List.length_take, s.length_validColumns] at hsellen
    omega
  refine ⟨fun hnone => ?_, fun h hinv => ?_⟩
  · exact exec_of_err (i := .decode) (decodeResult_of_matInv_eq_none hstream hvalid hnone)
  have hexec := exec_eq .decode s
  rw [instrResult, decodeResult_of_matInv_eq_some hstream hvalid hinv, complete_data] at hexec
  refine ⟨_, hexec, fun p hp => ?_, fun y hy => ?_⟩
  · rw [← entry_recoveredColumns h hsellen (Nat.mod_lt p hk) (s.div_lt_rc hk hp)]
    exact (State.readByte_congr rfl rfl _).trans
      (readByte_complete_data s s (recoveredColumns s h) (BitVec.ofNat 16 s.rc) hp)
  · refine (State.readByte_congr rfl rfl y).trans
      (s.readByte_storeBytes_of_not_mem (dataCells s (recoveredColumns s h)) y fun cell hcell => ?_)
    obtain ⟨p, hp, rfl⟩ := List.mem_map.mp hcell
    exact (hy p (List.mem_range.mp hp)).symm

/-- Settles O32: the valid columns are counted below total, and before anything is computed. -/
theorem decodeNeedsEnoughShares : Obligations.DecodeNeedsEnoughShares := by
  unfold Obligations.DecodeNeedsEnoughShares
  exact fun s hk hkm hlen hfew => exec_decode_of_validCount_lt (State.streamOk_of_bounds hk hkm hlen) hfew

end Sys2Proof.Machine
end
